-- ==== Sys2Proof/Word.lean ====
section
/-! DEFINITION. The widths of the PNGME-CRC32 block: 32-bit registers (00_scope.md R7), bytes, and the 6-bit
offset of the register window (20_memory.md R32). -/

namespace Sys2Proof

/-- A register, a command word or the data of a 4-byte access: 32 bits (00_scope.md R7). -/
abbrev Word := BitVec 32

/-- One byte of a message or of OUT_BE. -/
abbrev Byte := BitVec 8

/-- An offset into the 0x40-byte register window (20_memory.md R32, R33). -/
abbrev Offset := BitVec 6

end Sys2Proof
end

