-- ==== Sys2Proof/Config.lean ====
section
/-! DEFINITION. What an implementation fixes: the two OPEN parameters of 00_scope.md R7. Neither has a value here
(assumption log 6). There is no free value: the spec leaves no result open. -/

namespace Sys2Proof

/-- Which 0x40-byte window of the bus the block answers in. OPEN: no value (00_scope.md R7). -/
opaque Config.windowIndex : Nat

/-- `P_BASE`, the bus address of window offset 0x00; "a multiple of 0x40" (00_scope.md R7). -/
def Config.pBase : Nat := 0x40 * Config.windowIndex

/-- `P_LATENCY`, the clock cycles a command takes. OPEN: no rule depends on it (70_reset_and_hazards.md R127),
and no definition of the model reads it. -/
opaque Config.pLatency : Nat

end Sys2Proof
end

