-- ==== Sys2Proof/Syntax.lean ====
section
/-! DEFINITION. The commands of the block, one constructor per row of the opcode table (30_encoding.md R57, R61),
with the operands the decoder of R62 gives them. -/

namespace Sys2Proof

/-- A command. Its other operands (DATA, CRC_STATE, BYTE_COUNT, TYPE, CTRL) are implicit (30_encoding.md R60). -/
inductive Instr where
  /-- NOP (42_control.md R95). -/
  | nop
  /-- CRC.INIT (41_crc.md R84). -/
  | crcInit
  /-- CRC.FEED; `n` is the byte count N = N1 + 1 of 30_encoding.md R59, 1 to 4 (41_crc.md R85). -/
  | crcFeed (n : BitVec 3)
  /-- CRC.FINAL (41_crc.md R86). -/
  | crcFinal
  /-- CRC.VERIFY (41_crc.md R87). -/
  | crcVerify
  /-- TYPE.LOAD; `a` is the absorb flag A (40_typecode.md R74). -/
  | typeLoad (a : Bool)
  /-- TYPE.TEXT; `len` is the text length LEN, 0 to 15, and `a` the absorb flag A (40_typecode.md R75). -/
  | typeText (len : BitVec 4) (a : Bool)
  /-- ERR.CLR (42_control.md R96). -/
  | errClr
deriving DecidableEq, Repr

end Sys2Proof
end

