-- ==== Sys2Proof/WellFormed.lean ====
section
/-! DEFINITION. Which terms of `Instr` a command word can stand for. -/

namespace Sys2Proof

/-- The one check: CRC.FEED's count is 1, 2, 3 or 4, "a count of 0 cannot be encoded" (30_encoding.md R59).
Every LEN of 0 to 15 and both values of A are legal (R60). -/
def Instr.wellFormed : Instr → Bool
  | .nop => true
  | .crcInit => true
  | .crcFeed n => decide (1 ≤ n.toNat ∧ n.toNat ≤ 4)
  | .crcFinal => true
  | .crcVerify => true
  | .typeLoad _ => true
  | .typeText _ _ => true
  | .errClr => true

end Sys2Proof
end

