-- ==== Sys2Proof/Decode.lean ====
section
/-! DEFINITION. The command decoder and the encoder, from the tables of 30_encoding.md R57 to R64. -/

namespace Sys2Proof

/-- One row of the second table of 30_encoding.md R57: the fixed bits and their values. -/
structure Row where
  mask : Word
  pattern : Word
deriving DecidableEq, Repr

/-- `(w and mask) == match` (30_encoding.md R62). -/
def Row.accepts (r : Row) (w : Word) : Bool := (w &&& r.mask) == r.pattern

/-- NOP's row (30_encoding.md R57). -/
def rowNop : Row := ⟨0xFFFFFFFF#32, 0x00000000#32⟩
/-- CRC.INIT's row (30_encoding.md R57). -/
def rowCrcInit : Row := ⟨0xFFFFFFFF#32, 0x00000001#32⟩
/-- CRC.FEED's row: bits 9:8 are N1 (30_encoding.md R57). -/
def rowCrcFeed : Row := ⟨0xFFFFFCFF#32, 0x00000002#32⟩
/-- CRC.FINAL's row (30_encoding.md R57). -/
def rowCrcFinal : Row := ⟨0xFFFFFFFF#32, 0x00000003#32⟩
/-- CRC.VERIFY's row (30_encoding.md R57). -/
def rowCrcVerify : Row := ⟨0xFFFFFFFF#32, 0x00000004#32⟩
/-- TYPE.LOAD's row: bit 8 is A (30_encoding.md R57; 90_conflicts.md C6). -/
def rowTypeLoad : Row := ⟨0xFFFFFEFF#32, 0x00000010#32⟩
/-- TYPE.TEXT's row: bits 15:12 are LEN, bit 8 is A (30_encoding.md R57). -/
def rowTypeText : Row := ⟨0xFFFF0EFF#32, 0x00000011#32⟩
/-- ERR.CLR's row (30_encoding.md R57). -/
def rowErrClr : Row := ⟨0xFFFFFFFF#32, 0x00000020#32⟩

/-- The eight rows in the table's order. -/
def opcodeRows : List Row :=
  [rowNop, rowCrcInit, rowCrcFeed, rowCrcFinal, rowCrcVerify, rowTypeLoad, rowTypeText, rowErrClr]

/-- The row a command belongs to (30_encoding.md R61). -/
def Instr.row : Instr → Row
  | .nop => rowNop
  | .crcInit => rowCrcInit
  | .crcFeed _ => rowCrcFeed
  | .crcFinal => rowCrcFinal
  | .crcVerify => rowCrcVerify
  | .typeLoad _ => rowTypeLoad
  | .typeText _ _ => rowTypeText
  | .errClr => rowErrClr

/-- OP, bits 7:0 (30_encoding.md R57). -/
def opcodeField (w : Word) : Byte := w.extractLsb' 0 8
/-- N1, bits 9:8 (30_encoding.md R57). -/
def countField (w : Word) : BitVec 2 := w.extractLsb' 8 2
/-- A, bit 8 (30_encoding.md R60). -/
def absorbField (w : Word) : Bool := w.getLsbD 8
/-- LEN, bits 15:12 (30_encoding.md R60). -/
def lengthField (w : Word) : BitVec 4 := w.extractLsb' 12 4

/-- `N = zext_3(w[9:8]) + 1` (30_encoding.md R59). -/
def feedCount (n1 : BitVec 2) : BitVec 3 := n1.setWidth 3 + 1#3

/-- The assigned values of OP (30_encoding.md R64). -/
def assignedOpcodes : List Byte := opcodeRows.map fun r => opcodeField r.pattern

/-- Why a word is Illegal. Both reasons have the same effect (60_exceptions.md R104). -/
inductive Illegal where
  /-- OP is not in the opcode map (30_encoding.md R64). -/
  | unassignedOpcode (op : Byte)
  /-- OP is assigned and a reserved bit is 1 (30_encoding.md R63). -/
  | reservedBit
deriving DecidableEq, Repr

/-- What a command word decodes to (30_encoding.md R62). -/
inductive Decoded where
  | command (i : Instr)
  | illegal (why : Illegal)
deriving DecidableEq, Repr

/-- The command, if there is one. -/
def Decoded.instr? : Decoded → Option Instr
  | .command i => some i
  | .illegal _ => none

/-- The reason a word that no row accepts is Illegal (30_encoding.md R63, R64). -/
def whyIllegal (w : Word) : Illegal :=
  if opcodeField w ∈ assignedOpcodes then .reservedBit else .unassignedOpcode (opcodeField w)

/-- The decoder of 30_encoding.md R62, a total function of a 32-bit word. -/
def decode (w : Word) : Decoded :=
  if rowNop.accepts w then .command .nop
  else if rowCrcInit.accepts w then .command .crcInit
  else if rowCrcFeed.accepts w then .command (.crcFeed (feedCount (countField w)))
  else if rowCrcFinal.accepts w then .command .crcFinal
  else if rowCrcVerify.accepts w then .command .crcVerify
  else if rowTypeLoad.accepts w then .command (.typeLoad (absorbField w))
  else if rowTypeText.accepts w then .command (.typeText (lengthField w) (absorbField w))
  else if rowErrClr.accepts w then .command .errClr
  else .illegal (whyIllegal w)

/-- A flag at bit 8 of a word. -/
def absorbBit (a : Bool) : Word := (BitVec.ofBool a).setWidth 32 <<< 8

/-- The command word of a well-formed command, as the assembler of 30_encoding.md R66 writes it. -/
def encode : Instr → Word
  | .nop => 0x00000000#32
  | .crcInit => 0x00000001#32
  | .crcFeed n => 0x00000002#32 ||| ((n - 1#3).setWidth 32 <<< 8)
  | .crcFinal => 0x00000003#32
  | .crcVerify => 0x00000004#32
  | .typeLoad a => 0x00000010#32 ||| absorbBit a
  | .typeText len a => 0x00000011#32 ||| (len.setWidth 32 <<< 12) ||| absorbBit a
  | .errClr => 0x00000020#32

/-- The opcode table's numbering: a command is ONE 32-bit word, bit 0 its least significant bit, and it reaches
the block as one 32-bit bus value (30_encoding.md R56, R65; assumption log 12). Nothing longer exists. -/
def tableWord (nbits w : Nat) : Option Word :=
  if nbits ≤ 32 then some (BitVec.ofNat 32 (w % 2 ^ nbits)) else none

/-- The command the decoder reads from a table row's word. -/
def decodeTableWord (nbits w : Nat) : Option Instr :=
  match tableWord nbits w with
  | some word => (decode word).instr?
  | none => none

end Sys2Proof
end

