-- ==== Sys2Proof/Machine/State.lean ====
section
/-! DEFINITION. The block's stored state (10_state.md R14), the bus accesses that drive it (20_memory.md R32), and
the state after reset (10_state.md R30). -/

namespace Sys2Proof.Machine

/-- The values of STATUS.ERR_CODE (60_exceptions.md R99). Codes 5 to 15 "are reserved and are never recorded", so
they have no name here (assumption log 8). -/
inductive ErrCode where
  /-- 0: no error recorded since the last ERR.CLR or reset. -/
  | none
  /-- 1: CRC.VERIFY found another checksum (41_crc.md R87). -/
  | checksumMismatch
  /-- 2: a byte of DATA is not alphabetic (40_typecode.md R74, R75). -/
  | invalidTypeCode
  /-- 3: TYPE.TEXT with LEN other than 4 (40_typecode.md R75). -/
  | invalidLength
  /-- 4: a CMD write whose word is Illegal (60_exceptions.md R104). -/
  | illegalCmd
deriving DecidableEq, Repr

/-- The block's stored state, "one field per stored item and nothing else" (10_state.md R14). -/
structure Block where
  /-- CTRL.VALID_SEL (10_state.md R15). -/
  validSel : Bool
  /-- CTRL.IRQ_EN (10_state.md R15). -/
  irqEn : Bool
  /-- STATUS.CRC_MATCH (10_state.md R16). -/
  crcMatch : Bool
  /-- STATUS.CRC_MISMATCH (10_state.md R16). -/
  crcMismatch : Bool
  /-- STATUS.TYPE_OK (10_state.md R16). -/
  typeOk : Bool
  /-- STATUS.ERR_CODE (10_state.md R16; 60_exceptions.md R99). -/
  errCode : ErrCode
  /-- STATUS.MULTI_ERR (10_state.md R16). -/
  multiErr : Bool
  /-- STATUS.OUT_VALID (10_state.md R16). -/
  outValid : Bool
  /-- DATA (10_state.md R18). -/
  data : Word
  /-- CRC_STATE, the raw CRC register (10_state.md R20). -/
  crcState : Word
  /-- CRC_OUT (10_state.md R21). -/
  crcOut : Word
  /-- BYTE_COUNT (10_state.md R22). -/
  byteCount : Word
  /-- TYPE (10_state.md R23). -/
  typeReg : Word
deriving DecidableEq, Repr

/-- The word registers of the map of 20_memory.md R34. -/
inductive Reg where
  | id
  | ctrl
  | status
  | data
  | cmd
  | crcState
  | crcOut
  | byteCount
  | typeCode
  | typeFlags
deriving DecidableEq, Repr

/-- The size of a bus access: 1, 2 or 4 bytes (20_memory.md R32). -/
inductive Size where
  | byte
  | half
  | word
deriving DecidableEq, Repr

/-- The direction of a bus access; a write carries the 32-bit write data (20_memory.md R32). -/
inductive Dir where
  | read
  | write (v : Word)
deriving DecidableEq, Repr

/-- One bus access: `MemRead(addr, n)` or `MemWrite(addr, n, v)` (00_scope.md R10; 20_memory.md R32). -/
structure Request where
  addr : Offset
  size : Size
  dir : Dir
deriving DecidableEq, Repr

/-- The bus response: OKAY, with the read data for a read, or ERROR (20_memory.md R32; 60_exceptions.md R105). -/
inductive Response where
  /-- OKAY to a write. -/
  | okay
  /-- OKAY to a 4-byte read. -/
  | word (v : Word)
  /-- OKAY to a 1-byte read. -/
  | byte (v : Byte)
  /-- `BusError(addr)`: ERROR, no value and no state change (60_exceptions.md R105). -/
  | busError (addr : Offset)
deriving DecidableEq, Repr

/-- What can reach the block from outside (20_memory.md R32). -/
inductive Event where
  /-- A bus access, delivered between resets. -/
  | access (r : Request)
  /-- A reset between bus accesses (70_reset_and_hazards.md R118). -/
  | reset
  /-- A reset that overlaps an access; it has "no defined outcome" (70_reset_and_hazards.md R119). -/
  | resetOverlapping (r : Request)
deriving DecidableEq, Repr

/-- A delivered access and its response. -/
structure Completed where
  request : Request
  response : Response
deriving DecidableEq, Repr

/-- The machine: the block, and the bus on either side of it (assumption log 1). The block has no memory
(20_memory.md R33; assumption log 9). -/
structure State where
  /-- The block's stored state (10_state.md R14). -/
  block : Block
  /-- MODEL'S OWN: what the bus is still to deliver, in delivery order (20_memory.md R45, R46). -/
  pending : List Event
  /-- MODEL'S OWN: the accesses delivered so far, oldest first (70_reset_and_hazards.md R128). -/
  completed : List Completed
deriving DecidableEq, Repr

/-- A reason the machine stops. There is none: "the block never halts" (70_reset_and_hazards.md R128), a failing
command records its error and goes on (60_exceptions.md R98), and a bus error is a response after which the next
access is served (R105). Nobody raises a fault, which is safe: nothing is cut short (assumption log 4). -/
inductive Fault where
deriving DecidableEq, Repr

/-- A step the model makes no claim about. -/
inductive Refusal where
  /-- Raised by no arm of `exec` any more: every command has its meaning. Safe: it would only stop. -/
  | notModelled (mnemonic : String)
  /-- Raised by `step` for an access that overlaps the assertion of `rst`: "A model refuses it"
  (70_reset_and_hazards.md R119; assumption log 7). Safe: nothing is claimed of such a run. -/
  | resetOverlapsAccess
deriving DecidableEq, Repr

/-- The block after reset (10_state.md R30). -/
def Block.reset : Block where
  validSel := false
  irqEn := false
  crcMatch := false
  crcMismatch := false
  typeOk := false
  errCode := .none
  multiErr := false
  outValid := false
  data := 0x00000000#32
  crcState := 0xFFFFFFFF#32
  crcOut := 0x00000000#32
  byteCount := 0x00000000#32
  typeReg := 0x00000000#32

/-- The machine right after reset: the block of 10_state.md R30, ready for any access (70_reset_and_hazards.md
R120), with nothing pending and nothing delivered yet (assumption log 2). -/
def State.reset : State where
  block := Block.reset
  pending := []
  completed := []

end Sys2Proof.Machine
end

