-- ==== Sys2Proof/Machine/Operands.lean ====
section
/-! DEFINITION. How the block reads a 32-bit register as bytes: big-endian, byte 0 in bits 31:24 (00_scope.md R9;
20_memory.md R41). -/

namespace Sys2Proof.Machine

/-- `byte_i(w) = w[31-8i:24-8i]` for i = 0 to 3 (00_scope.md R9). -/
def byteOf (w : Word) (i : Fin 4) : Byte := w.extractLsb' (24 - 8 * i.val) 8

/-- The four bytes of a word in wire order, byte 0 first (00_scope.md R9). -/
def bytesOf (w : Word) : List Byte := [byteOf w 0, byteOf w 1, byteOf w 2, byteOf w 3]

/-- The first `n` bytes of a word (41_crc.md R82). -/
def firstBytes (w : Word) (n : Nat) : List Byte := (bytesOf w).take n

/-- The word `b0 ‖ b1 ‖ b2 ‖ b3` of four wire bytes (20_memory.md R41). -/
def wordOfBytes (b0 b1 b2 b3 : Byte) : Word := b0 ++ b1 ++ b2 ++ b3

end Sys2Proof.Machine
end

