-- ==== Sys2Proof/Machine/Crc32.lean ====
section
/-! DEFINITION. CRC-32/ISO-HDLC: the one-byte update of 41_crc.md R81, the checksum of a byte sequence (R83), and
the same algorithm in the unreflected form of R80's parameters (assumption log 11). -/

namespace Sys2Proof.Machine

/-- The generator in bit-reflected form (41_crc.md R80). -/
def crcPolyReflected : Word := 0xEDB88320#32

/-- The initial register value (41_crc.md R80). -/
def crcInitValue : Word := 0xFFFFFFFF#32

/-- The value the raw state is xored with to give the checksum (41_crc.md R80). -/
def crcFinalXor : Word := 0xFFFFFFFF#32

/-- One round of the loop of `crc_byte` (41_crc.md R81). -/
def crcBit (t : Word) : Word :=
  if t.getLsbD 0 then (t >>> 1) ^^^ crcPolyReflected else t >>> 1

/-- `k` rounds of the loop (41_crc.md R81). -/
def crcBits : Nat → Word → Word
  | 0, t => t
  | k + 1, t => crcBits k (crcBit t)

/-- `crc_byte(s, b)` (41_crc.md R81). -/
def crcByte (s : Word) (b : Byte) : Word := crcBits 8 (s ^^^ b.setWidth 32)

/-- The raw state after the bytes of `m` in order, from the raw state `s` (41_crc.md R83's S_k). -/
def crcBytes (s : Word) (m : List Byte) : Word := m.foldl crcByte s

/-- The checksum a raw state stands for: `CRC_STATE xor 0xFFFFFFFF` (00_scope.md glossary; 41_crc.md R86). -/
def finalValue (s : Word) : Word := s ^^^ crcFinalXor

/-- `crc32(M)` (41_crc.md R83). -/
def crc32 (m : List Byte) : Word := finalValue (crcBytes crcInitValue m)

/-- The generator polynomial x^32 + x^26 + … + x + 1, its x^32 term left out (41_crc.md R80). -/
def crcPoly : Word := 0x04C11DB7#32

/-- One bit of polynomial division, most significant bit first: the unreflected form of 41_crc.md R80's shift register
(assumption log 11). -/
def divideBit (t : Word) : Word :=
  if t.msb then (t <<< 1) ^^^ crcPoly else t <<< 1

/-- `k` bits of the division. -/
def divideBits : Nat → Word → Word
  | 0, t => t
  | k + 1, t => divideBits k (divideBit t)

/-- One byte of the division with the input reflected: each byte enters least significant bit first
(41_crc.md R80). -/
def divideByte (t : Word) (b : Byte) : Word := divideBits 8 (t ^^^ (b.reverse.setWidth 32 <<< 24))

/-- DEDUCED: the model's reading of 41_crc.md R80's parameters (assumption log 11): width 32, polynomial 0x04C11DB7,
initial value, input and output reflected, final xor. No command uses it; it is what `crc32` is held against. -/
def crc32Catalogue (m : List Byte) : Word :=
  (m.foldl divideByte crcInitValue).reverse ^^^ crcFinalXor

end Sys2Proof.Machine
end

