-- ==== Sys2Proof/Machine/Flags.lean ====
section
/-! DEFINITION. The type-code predicates (40_typecode.md R68 to R73), the words CTRL, STATUS and TYPE_FLAGS read as
(10_state.md R15, R16, R24), and the `irq` output (60_exceptions.md R109). -/

namespace Sys2Proof.Machine

/-- A byte is an uppercase ASCII letter, A to Z (40_typecode.md R68). -/
def uppercase (b : Byte) : Bool := decide (0x41 ≤ b.toNat) && decide (b.toNat ≤ 0x5A)

/-- A byte is a lowercase ASCII letter, a to z (40_typecode.md R68). -/
def lowercase (b : Byte) : Bool := decide (0x61 ≤ b.toNat) && decide (b.toNat ≤ 0x7A)

/-- A byte is alphabetic (40_typecode.md R68). -/
def alphabetic (b : Byte) : Bool := uppercase b || lowercase b

/-- `alpha4(T)`: every byte is alphabetic (40_typecode.md R68). -/
def alpha4 (t : Word) : Bool :=
  alphabetic (byteOf t 0) && alphabetic (byteOf t 1) && alphabetic (byteOf t 2) && alphabetic (byteOf t 3)

/-- `crit(T) = not T[29]` (40_typecode.md R70). -/
def crit (t : Word) : Bool := !t.getLsbD 29

/-- `pub(T) = not T[21]` (40_typecode.md R70). -/
def pub (t : Word) : Bool := !t.getLsbD 21

/-- `res(T) = not T[13]` (40_typecode.md R70). -/
def res (t : Word) : Bool := !t.getLsbD 13

/-- `safe(T) = T[5]` (40_typecode.md R70). -/
def safe (t : Word) : Bool := t.getLsbD 5

/-- `valid(T)` under the given VALID_SEL (40_typecode.md R72). -/
def valid (validSel : Bool) (t : Word) : Bool :=
  if validSel then res t else !pub t && res t

/-- Ancillary: not critical (40_typecode.md R71). -/
def ancillary (t : Word) : Bool := !crit t

/-- Private: not public (40_typecode.md R71). -/
def isPrivate (t : Word) : Bool := !pub t

/-- Unsafe-to-copy: not safe-to-copy (40_typecode.md R71). -/
def unsafeToCopy (t : Word) : Bool := !safe t

/-- The number of an error code in STATUS[7:4] (60_exceptions.md R99). -/
def ErrCode.bits : ErrCode → BitVec 4
  | .none => 0#4
  | .checksumMismatch => 1#4
  | .invalidTypeCode => 2#4
  | .invalidLength => 3#4
  | .illegalCmd => 4#4

/-- STATUS.ERR: `ERR_CODE != 0` (10_state.md R26). -/
def Block.err (b : Block) : Bool := b.errCode.bits != 0#4

/-- The value CTRL reads as; bits 31:2 read 0 (10_state.md R15). -/
def Block.ctrlWord (b : Block) : Word := 0#30 ++ BitVec.ofBool b.irqEn ++ BitVec.ofBool b.validSel

/-- The value STATUS reads as; bits 31:10 read 0 (10_state.md R16). -/
def Block.statusWord (b : Block) : Word :=
  0#22 ++ BitVec.ofBool b.outValid ++ BitVec.ofBool b.multiErr ++ b.errCode.bits ++ BitVec.ofBool b.err ++
    BitVec.ofBool b.typeOk ++ BitVec.ofBool b.crcMismatch ++ BitVec.ofBool b.crcMatch

/-- The value TYPE_FLAGS reads as: bit 0 live, bits 5:1 gated by TYPE_OK, bits 31:6 zero (40_typecode.md R73). -/
def Block.typeFlagsWord (b : Block) : Word :=
  0#26 ++ BitVec.ofBool (b.typeOk && valid b.validSel b.typeReg) ++ BitVec.ofBool (b.typeOk && safe b.typeReg) ++
    BitVec.ofBool (b.typeOk && res b.typeReg) ++ BitVec.ofBool (b.typeOk && pub b.typeReg) ++
    BitVec.ofBool (b.typeOk && crit b.typeReg) ++ BitVec.ofBool (alpha4 b.typeReg)

/-- The `irq` output: `CTRL.IRQ_EN and STATUS.ERR` (60_exceptions.md R109). -/
def Block.irq (b : Block) : Bool := b.irqEn && b.err

/-- The text form of a validated code: its four bytes in order. A code that is not validated has none: the
document leaves it undefined and a host does not render it (40_typecode.md R77). -/
def Block.textForm? (b : Block) : Option (List Byte) :=
  if b.typeOk then some (bytesOf b.typeReg) else none

end Sys2Proof.Machine
end

