-- ==== Sys2Proof/Machine/Ops.lean ====
section
/-! DEFINITION. The named operations over the block's registers that the commands and the bus accesses share:
recording an error (60_exceptions.md R101), absorbing bytes (41_crc.md R82), producing the checksum (R86, R87),
loading a type code (40_typecode.md R74, R75), and the window's reads and writes (20_memory.md R34, R37). -/

namespace Sys2Proof.Machine

/-- Replace the block and leave the bus side as it is. -/
def State.withBlock (s : State) (b : Block) : State := { s with block := b }

/-- `record_error(code)` for a code of 1 to 4: keep the first error, note that others followed
(60_exceptions.md R101). It saves nothing else and transfers no control (R98, R111). -/
def Block.recordError (b : Block) (code : ErrCode) : Block :=
  { b with
    errCode := if b.errCode = .none then code else b.errCode
    multiErr := if b.errCode = .none then b.multiErr else true }

/-- Clear the error record: the effect of ERR.CLR (42_control.md R96). -/
def Block.clearError (b : Block) : Block := { b with errCode := .none, multiErr := false }

/-- Clear OUT_VALID, CRC_MATCH and CRC_MISMATCH, which describe a message that has changed (41_crc.md R82, R84). -/
def Block.clearResults (b : Block) : Block :=
  { b with outValid := false, crcMatch := false, crcMismatch := false }

/-- `absorb(w, n)`, n in 1 to 4 (41_crc.md R82). -/
def Block.absorb (b : Block) (w : Word) (n : Nat) : Block :=
  { b.clearResults with
    crcState := crcBytes b.crcState (firstBytes w n)
    byteCount := b.byteCount + BitVec.ofNat 32 n }

/-- Start a message: CRC_STATE and BYTE_COUNT at their initial values, the results cleared (41_crc.md R84). -/
def Block.startMessage (b : Block) : Block :=
  { b.clearResults with crcState := crcInitValue, byteCount := 0x00000000#32 }

/-- Write the checksum of the message absorbed so far to CRC_OUT and set OUT_VALID (41_crc.md R86, R87). -/
def Block.produce (b : Block) : Block := { b with crcOut := finalValue b.crcState, outValid := true }

/-- Set one of CRC_MATCH and CRC_MISMATCH and clear the other (41_crc.md R87). -/
def Block.setVerdict (b : Block) (equal : Bool) : Block := { b with crcMatch := equal, crcMismatch := !equal }

/-- Write DATA to TYPE and the outcome of the check to TYPE_OK (40_typecode.md R74, R75). -/
def Block.setType (b : Block) (ok : Bool) : Block := { b with typeReg := b.data, typeOk := ok }

/-- Load and validate the type code in DATA, absorbing its four bytes whether or not they are letters when `a` is
set (40_typecode.md R74). -/
def Block.loadType (b : Block) (a : Bool) : Block :=
  let ok := alpha4 b.data
  let loaded := b.setType ok
  let absorbed := if a then loaded.absorb b.data 4 else loaded
  if ok then absorbed else absorbed.recordError .invalidTypeCode

/-- ID's value, the ASCII bytes "CRC1" (10_state.md R17). -/
def idValue : Word := 0x43524331#32

/-- The offset of a word register (20_memory.md R34). -/
def Reg.offset : Reg → Offset
  | .id => 0x00#6
  | .ctrl => 0x04#6
  | .status => 0x08#6
  | .data => 0x0C#6
  | .cmd => 0x10#6
  | .crcState => 0x14#6
  | .crcOut => 0x18#6
  | .byteCount => 0x1C#6
  | .typeCode => 0x20#6
  | .typeFlags => 0x24#6

/-- The word register at an offset; misaligned and reserved offsets and OUT_BE hold none (20_memory.md R34). -/
def Reg.at? (a : Offset) : Option Reg :=
  if a = 0x00#6 then some .id
  else if a = 0x04#6 then some .ctrl
  else if a = 0x08#6 then some .status
  else if a = 0x0C#6 then some .data
  else if a = 0x10#6 then some .cmd
  else if a = 0x14#6 then some .crcState
  else if a = 0x18#6 then some .crcOut
  else if a = 0x1C#6 then some .byteCount
  else if a = 0x20#6 then some .typeCode
  else if a = 0x24#6 then some .typeFlags
  else none

/-- The 32-bit value a register reads as (20_memory.md R34, R36). CMD reads 0 (10_state.md R19). -/
def Block.readReg (b : Block) : Reg → Word
  | .id => idValue
  | .ctrl => b.ctrlWord
  | .status => b.statusWord
  | .data => b.data
  | .cmd => 0x00000000#32
  | .crcState => b.crcState
  | .crcOut => b.crcOut
  | .byteCount => b.byteCount
  | .typeCode => b.typeReg
  | .typeFlags => b.typeFlagsWord

/-- What a 4-byte read at an offset returns, if the window has a word there (20_memory.md R34, R36). -/
def Block.readWord? (b : Block) (a : Offset) : Option Word := (Reg.at? a).map b.readReg

/-- Byte `k` of OUT_BE: `byte_k(CRC_OUT)` (10_state.md R25). -/
def Block.outBe (b : Block) (k : Fin 4) : Byte := byteOf b.crcOut k

/-- What a 1-byte read at an offset returns: the four bytes of OUT_BE at 0x28 to 0x2B and nothing else
(20_memory.md R34, R40). -/
def Block.readByte? (b : Block) (a : Offset) : Option Byte :=
  if a = 0x28#6 then some (b.outBe 0)
  else if a = 0x29#6 then some (b.outBe 1)
  else if a = 0x2A#6 then some (b.outBe 2)
  else if a = 0x2B#6 then some (b.outBe 3)
  else none

/-- A write of `v` to CTRL: bits 1:0 are stored, bits 31:2 are ignored (10_state.md R15). -/
def Block.writeCtrl (b : Block) (v : Word) : Block := { b with validSel := v.getLsbD 0, irqEn := v.getLsbD 1 }

/-- A write of `v` to DATA: all 32 bits are stored (10_state.md R18). -/
def Block.writeData (b : Block) (v : Word) : Block := { b with data := v }

/-- Which accesses the window admits, written from the pseudocode of 20_memory.md R35. The machine answers from
the register map of R34; that the two agree is an obligation. -/
def Request.admitted (r : Request) : Bool :=
  match r.dir, r.size with
  | .read, .word => decide (r.addr.toNat % 4 = 0 ∧ r.addr.toNat ≤ 0x24)
  | .write _, .word => decide (r.addr.toNat = 0x04 ∨ r.addr.toNat = 0x0C ∨ r.addr.toNat = 0x10)
  | .read, .byte => decide (0x28 ≤ r.addr.toNat ∧ r.addr.toNat ≤ 0x2B)
  | .write _, .byte => false
  | .read, .half => false
  | .write _, .half => false

/-- Log an access and its response on the bus side. -/
def State.respond (s : State) (r : Request) (answer : Response) : State :=
  { s with completed := s.completed ++ [⟨r, answer⟩] }

end Sys2Proof.Machine
end

