-- ==== Sys2Proof/Machine/ControlCommands.lean ====
section
/-! DEFINITION. NOP and ERR.CLR (42_control.md). -/

namespace Sys2Proof.Machine

/-- NOP: no state changes (42_control.md R95). -/
def execNop (s : State) : Host.Outcome State Fault Refusal := .next s

/-- ERR.CLR: ERR_CODE and MULTI_ERR become 0, so `irq` falls (42_control.md R96). -/
def execErrClr (s : State) : Host.Outcome State Fault Refusal := .next (s.withBlock s.block.clearError)

end Sys2Proof.Machine
end

