-- ==== Sys2Proof/Machine/CrcCommands.lean ====
section
/-! DEFINITION. CRC.INIT, CRC.FEED, CRC.FINAL and CRC.VERIFY (41_crc.md). -/

namespace Sys2Proof.Machine

/-- CRC.INIT (41_crc.md R84). CRC_OUT, TYPE, TYPE_OK and the error record are kept. -/
def execCrcInit (s : State) : Host.Outcome State Fault Refusal := .next (s.withBlock s.block.startMessage)

/-- CRC.FEED: `absorb(DATA, N)` (41_crc.md R85). DATA is not consumed. A count no word encodes is total here too
(assumption log 10). -/
def execCrcFeed (n : BitVec 3) (s : State) : Host.Outcome State Fault Refusal :=
  .next (s.withBlock (s.block.absorb s.block.data n.toNat))

/-- CRC.FINAL (41_crc.md R86). CRC_STATE and the verify flags are kept. -/
def execCrcFinal (s : State) : Host.Outcome State Fault Refusal := .next (s.withBlock s.block.produce)

/-- CRC.VERIFY: produce the checksum, compare it with DATA, record CHECKSUM_MISMATCH when they differ
(41_crc.md R87). -/
def execCrcVerify (s : State) : Host.Outcome State Fault Refusal :=
  let b := s.block.produce
  if b.crcOut = b.data then .next (s.withBlock (b.setVerdict true))
  else .next (s.withBlock ((b.setVerdict false).recordError .checksumMismatch))

end Sys2Proof.Machine
end

