-- ==== Sys2Proof/Machine/TypeCommands.lean ====
section
/-! DEFINITION. TYPE.LOAD and TYPE.TEXT (40_typecode.md). -/

namespace Sys2Proof.Machine

/-- TYPE.LOAD: load the code in DATA and validate it (40_typecode.md R74). -/
def execTypeLoad (a : Bool) (s : State) : Host.Outcome State Fault Refusal :=
  .next (s.withBlock (s.block.loadType a))

/-- TYPE.TEXT: the length check comes first and alone, with no absorb; LEN = 4 goes on as TYPE.LOAD
(40_typecode.md R75; 60_exceptions.md R107). -/
def execTypeText (len : BitVec 4) (a : Bool) (s : State) : Host.Outcome State Fault Refusal :=
  if len = 4#4 then .next (s.withBlock (s.block.loadType a))
  else .next (s.withBlock ((s.block.setType false).recordError .invalidLength))

end Sys2Proof.Machine
end

