-- ==== Sys2Proof/Machine/Dispatch.lean ====
section
/-! DEFINITION. The effect of a command, one arm per row of the opcode map (30_encoding.md R61). -/

namespace Sys2Proof.Machine

def exec (i : Instr) (s : State) : Host.Outcome State Fault Refusal :=
  match i with
  | .nop => Sys2Proof.Machine.execNop s
  | .crcInit => Sys2Proof.Machine.execCrcInit s
  | .crcFeed n => Sys2Proof.Machine.execCrcFeed n s
  | .crcFinal => Sys2Proof.Machine.execCrcFinal s
  | .crcVerify => Sys2Proof.Machine.execCrcVerify s
  | .typeLoad a => Sys2Proof.Machine.execTypeLoad a s
  | .typeText len a => Sys2Proof.Machine.execTypeText len a s
  | .errClr => Sys2Proof.Machine.execErrClr s

end Sys2Proof.Machine
end

