-- ==== Sys2Proof/Machine/Access.lean ====
section
/-! DEFINITION. One bus access (20_memory.md R35 to R40), one command write (30_encoding.md R58), one event from
outside (70_reset_and_hazards.md R118, R119), and how a bus address reaches the window (20_memory.md R33). -/

namespace Sys2Proof.Machine

/-- The effect of writing `w` to CMD: the command it decodes to, or ILLEGAL_CMD recorded and nothing else
(30_encoding.md R58; 60_exceptions.md R104). -/
def performCommand (w : Word) (s : State) : Host.Outcome State Fault Refusal :=
  match decode w with
  | .command i => exec i s
  | .illegal _ => .next (s.withBlock (s.block.recordError .illegalCmd))

/-- Log the response OKAY of the write `r` whose effect is `o`, in the same step (20_memory.md R38). -/
def acknowledge (r : Request) (o : Host.Outcome State Fault Refusal) : Host.Outcome State Fault Refusal :=
  match o with
  | .next s => .next (s.respond r .okay)
  | .fault f => .fault f
  | .refused x => .refused x

/-- `raise BusError(addr)`: an ERROR response and no state change; the access still counts as a step
(60_exceptions.md R105, R106; assumption log 4). -/
def raiseBusError (r : Request) (s : State) : Host.Outcome State Fault Refusal :=
  .next (s.respond r (.busError r.addr))

/-- A 4-byte read (20_memory.md R36). -/
def readWordAccess (r : Request) (s : State) : Host.Outcome State Fault Refusal :=
  match s.block.readWord? r.addr with
  | some v => .next (s.respond r (.word v))
  | none => raiseBusError r s

/-- A 1-byte read (20_memory.md R40). -/
def readByteAccess (r : Request) (s : State) : Host.Outcome State Fault Refusal :=
  match s.block.readByte? r.addr with
  | some v => .next (s.respond r (.byte v))
  | none => raiseBusError r s

/-- A 4-byte write of `v`: CTRL, DATA or CMD, anything else a bus error (20_memory.md R37). -/
def writeWordAccess (r : Request) (v : Word) (s : State) : Host.Outcome State Fault Refusal :=
  if r.addr = Reg.ctrl.offset then acknowledge r (.next (s.withBlock (s.block.writeCtrl v)))
  else if r.addr = Reg.data.offset then acknowledge r (.next (s.withBlock (s.block.writeData v)))
  else if r.addr = Reg.cmd.offset then acknowledge r (performCommand v s)
  else raiseBusError r s

/-- One bus access, performed whole (20_memory.md R38). No 2-byte access and no 1-byte write is admitted (R35). -/
def performAccess (r : Request) (s : State) : Host.Outcome State Fault Refusal :=
  match r.dir, r.size with
  | .read, .word => readWordAccess r s
  | .read, .byte => readByteAccess r s
  | .read, .half => raiseBusError r s
  | .write v, .word => writeWordAccess r v s
  | .write _, .byte => raiseBusError r s
  | .write _, .half => raiseBusError r s

/-- One event from outside. A reset sets every piece of the block's state in one step (70_reset_and_hazards.md
R118); one that overlaps an access is refused (R119). -/
def performEvent (e : Event) (s : State) : Host.Outcome State Fault Refusal :=
  match e with
  | .access r => performAccess r s
  | .reset => .next (s.withBlock Block.reset)
  | .resetOverlapping _ => .refused .resetOverlapsAccess

/-- Deliver the next event; with none the block waits, as it is (20_memory.md R45; 70_reset_and_hazards.md R128;
assumption log 3). -/
def deliverNext (s : State) : Host.Outcome State Fault Refusal :=
  match s.pending with
  | [] => .next s
  | e :: rest => performEvent e { s with pending := rest }

/-- `MemWrite(0x10, 4, w)` (30_encoding.md R58). -/
def commandWrite (w : Word) : Request := ⟨Reg.cmd.offset, .word, .write w⟩

/-- `MemWrite(0x0C, 4, v)` (20_memory.md R37). -/
def dataWrite (v : Word) : Request := ⟨Reg.data.offset, .word, .write v⟩

/-- `MemWrite(0x04, 4, v)` (20_memory.md R37). -/
def ctrlWrite (v : Word) : Request := ⟨Reg.ctrl.offset, .word, .write v⟩

/-- The access the block sees for an access at a bus address, if the address lies in its window; any other
"does not reach the block" (20_memory.md R33). -/
def routeAccess (busAddr : Nat) (size : Size) (dir : Dir) : Option Request :=
  if Config.pBase ≤ busAddr ∧ busAddr < Config.pBase + 0x40 then
    some ⟨BitVec.ofNat 6 (busAddr - Config.pBase), size, dir⟩
  else none

/-- A write of the given command word placed as the next access of the bus. -/
def State.offerCommand (s : State) (w : Word) : State :=
  { s with pending := .access (commandWrite w) :: s.pending }

end Sys2Proof.Machine
end

