-- ==== Sys2Proof/Machine/Step.lean ====
section
/-! DEFINITION. One step of the machine: one bus access, or one reset (00_scope.md R6). -/

namespace Sys2Proof.Machine

/-- One step (00_scope.md R6; 20_memory.md R38, R45). -/
def step (s : State) : Host.Outcome State Fault Refusal := deliverNext s

/-- The block fetches nothing (10_state.md R13): an instruction reaches it as a write to CMD, so the command word
is placed as the next access the bus delivers (assumption log 2). A table word that is no 32-bit word places
nothing. -/
def State.withFetchWord (s : State) (nbits w : Nat) : State :=
  match tableWord nbits w with
  | some word => s.offerCommand word
  | none => s

end Sys2Proof.Machine
end

