-- ==== Sys2Proof/Machine/Assembly.lean ====
section
/-! DEFINITION. The host's notation: assembler statements and pseudo-instructions with their accesses
(30_encoding.md R66, R67), and the statement sequences that make and check a chunk checksum (41_crc.md R89, R90).
None of it adds behaviour: a statement IS the accesses it expands to. -/

namespace Sys2Proof.Machine

/-- An immediate: a hexadecimal word, or a string of at most four characters (30_encoding.md R66). DESIGN CHOICE: a
character is any byte, though R66 speaks of ASCII strings only (assumption log 13). -/
inductive Imm where
  | hex (v : Word)
  | text (chars : List Byte)
deriving DecidableEq, Repr

/-- The word of an immediate: a string's characters from byte 0 on, "padded with 0x00 bytes at the end"
(30_encoding.md R66). A term that is not well-formed has a word too (assumption log 13). -/
def Imm.value : Imm → Word
  | .hex v => v
  | .text cs => wordOfBytes (cs.getD 0 0#8) (cs.getD 1 0#8) (cs.getD 2 0#8) (cs.getD 3 0#8)

/-- A string immediate has at most four characters (30_encoding.md R66). DESIGN CHOICE: a character of 0x80 or above,
which is no ASCII and to which R66 gives no meaning, is admitted too (assumption log 13). -/
def Imm.wellFormed : Imm → Bool
  | .hex _ => true
  | .text cs => decide (cs.length ≤ 4)

/-- A statement of the assembler (30_encoding.md R66), or a pseudo-instruction (R67). -/
inductive Stmt where
  /-- `WR <reg>, <imm32>`, reg in CTRL, DATA, CMD. -/
  | wr (reg : Reg) (imm : Imm)
  /-- `RD <reg>`, reg any word register. -/
  | rd (reg : Reg)
  /-- `RDB OUT_BE+<k>`, k in 0 to 3. -/
  | rdb (k : Nat)
  /-- A command statement: `WR CMD` of its word. -/
  | command (i : Instr)
  /-- `FEEDW <imm32>`. -/
  | feedw (imm : Imm)
  /-- `FEEDB <n>, <imm32>`. -/
  | feedb (n : BitVec 3) (imm : Imm)
  /-- `CHUNKTYPE <imm32>`. -/
  | chunktype (imm : Imm)
  /-- `EXPECT <imm32>`. -/
  | expect (imm : Imm)
deriving DecidableEq, Repr

/-- The registers `WR` takes (30_encoding.md R66). -/
def Reg.writable : Reg → Bool
  | .ctrl => true
  | .data => true
  | .cmd => true
  | .id => false
  | .status => false
  | .crcState => false
  | .crcOut => false
  | .byteCount => false
  | .typeCode => false
  | .typeFlags => false

/-- The operands a statement admits (30_encoding.md R66). -/
def Stmt.wellFormed : Stmt → Bool
  | .wr reg imm => reg.writable && imm.wellFormed
  | .rd _ => true
  | .rdb k => decide (k ≤ 3)
  | .command i => i.wellFormed
  | .feedw imm => imm.wellFormed
  | .feedb n imm => (Instr.crcFeed n).wellFormed && imm.wellFormed
  | .chunktype imm => imm.wellFormed
  | .expect imm => imm.wellFormed

/-- The accesses a statement stands for: one, or for a pseudo-instruction two (30_encoding.md R66, R67). A statement that
is not well-formed expands too (assumption log 13). -/
def Stmt.expand : Stmt → List Request
  | .wr reg imm => [⟨reg.offset, .word, .write imm.value⟩]
  | .rd reg => [⟨reg.offset, .word, .read⟩]
  | .rdb k => [⟨0x28#6 + BitVec.ofNat 6 k, .byte, .read⟩]
  | .command i => [commandWrite (encode i)]
  | .feedw imm => [dataWrite imm.value, commandWrite (encode (.crcFeed 4#3))]
  | .feedb n imm => [dataWrite imm.value, commandWrite (encode (.crcFeed n))]
  | .chunktype imm => [dataWrite imm.value, commandWrite (encode (.typeLoad true))]
  | .expect imm => [dataWrite imm.value, commandWrite (encode .crcVerify)]

/-- The events of a statement sequence, in order. -/
def eventsOf (l : List Stmt) : List Event := (l.flatMap Stmt.expand).map .access

/-- A statement that absorbs bytes (41_crc.md R82, R91): a feed of N1 + 1 bytes of a word, or one of the two type
commands with A = 1 on a word. -/
inductive Absorbing where
  | feed (n1 : BitVec 2) (w : Word)
  | load (w : Word)
  | text (w : Word)
deriving DecidableEq, Repr

/-- The statements of an absorbing statement: the word to DATA, then the command. -/
def Absorbing.stmts : Absorbing → List Stmt
  | .feed n1 w => [.feedb (feedCount n1) (.hex w)]
  | .load w => [.chunktype (.hex w)]
  | .text w => [.wr .data (.hex w), .command (.typeText 4#4 true)]

/-- The bytes an absorbing statement feeds, in order (41_crc.md R82). -/
def Absorbing.bytes : Absorbing → List Byte
  | .feed n1 w => firstBytes w (n1.toNat + 1)
  | .load w => bytesOf w
  | .text w => bytesOf w

/-- A payload in groups of up to four bytes (41_crc.md R89). DESIGN CHOICE: every group but the last has four bytes,
and the bytes of DATA beyond a short last group, which CRC.FEED ignores "whatever they hold" (R85), are 0x00
(assumption log 14). -/
def payloadFeeds : List Byte → List Absorbing
  | b0 :: b1 :: b2 :: b3 :: rest => .feed 3#2 (wordOfBytes b0 b1 b2 b3) :: payloadFeeds rest
  | [b0, b1, b2] => [.feed 2#2 (wordOfBytes b0 b1 b2 0#8)]
  | [b0, b1] => [.feed 1#2 (wordOfBytes b0 b1 0#8 0#8)]
  | [b0] => [.feed 0#2 (wordOfBytes b0 0#8 0#8 0#8)]
  | [] => []

/-- A new message and a series of absorbing statements (41_crc.md R83, R91). -/
def absorbSequence (l : List Absorbing) : List Stmt := .command .crcInit :: l.flatMap Absorbing.stmts

/-- The type code and the payload as one message (41_crc.md R89). DESIGN CHOICE: the type bytes are absorbed by
TYPE.LOAD, where R89 allows CRC.FEED 4 as well (assumption log 14). -/
def chunkSequence (t : Word) (payload : List Byte) : List Stmt := absorbSequence (.load t :: payloadFeeds payload)

/-- The generation sequence of 41_crc.md R89. -/
def generateSequence (t : Word) (payload : List Byte) : List Stmt :=
  chunkSequence t payload ++ [.command .crcFinal]

/-- The verification sequence of 41_crc.md R90, against the expected checksum `c`. -/
def verifySequence (t : Word) (payload : List Byte) (c : Word) : List Stmt :=
  chunkSequence t payload ++ [.expect (.hex c)]

end Sys2Proof.Machine
end

