-- ==== Sys2Proof/Safety.lean ====
section
/-! DEFINITION. The laws a block state keeps, and what a run of a host program shows of the block. -/

namespace Sys2Proof.Machine

/-- The relations between the block's registers that every step keeps:
CRC_MATCH and CRC_MISMATCH are never both 1 (10_state.md R16);
TYPE_OK = 1 implies that every byte of TYPE is a letter (40_typecode.md R76);
OUT_VALID = 1 means that CRC_OUT is the final value of the current CRC_STATE (10_state.md R16);
a verify flag is set only while CRC_OUT is current (41_crc.md R82, R84, R87);
MULTI_ERR = 1 only while an error is recorded (60_exceptions.md R101; 42_control.md R96). -/
abbrev Block.Consistent (b : Block) : Prop :=
  (b.crcMatch && b.crcMismatch) = false ∧
  (b.typeOk = true → alpha4 b.typeReg = true) ∧
  (b.outValid = true → b.crcOut = finalValue b.crcState) ∧
  ((b.crcMatch || b.crcMismatch) = true → b.outValid = true) ∧
  (b.multiErr = true → b.errCode ≠ .none)

/-- The observation of a run: "the sequence of values and responses its reads return, and the final level of
`irq`" (70_reset_and_hazards.md R128; assumption log 5). -/
def State.observation (s : State) : List Response × Bool :=
  ((s.completed.filter fun c => decide (c.request.dir = .read)).map Completed.response, s.block.irq)

/-- `k` steps of the machine behind the host's interface, on the machine's own state type. -/
def run (k : Nat) (s : State) : Host.Outcome State Fault Refusal := Host.Core.run Sys2Proof.core k s

/-- The run of a statement sequence: one step per access, from a state with the sequence pending before `rest`. -/
def runSequence (l : List Stmt) (s : State) (rest : List Event) : Host.Outcome State Fault Refusal :=
  run (eventsOf l).length { s with pending := eventsOf l ++ rest }

/-- The 4-byte reads whose value a command may change, as offsets of 20_memory.md R34; what each command's rule
lists as written, STATUS and TYPE_FLAGS following the stored fields (40_typecode.md R74, R75; 41_crc.md R84 to R87;
42_control.md R95, R96). -/
def wordsWritten : Instr → List Offset
  | .nop => []
  | .crcInit => [0x08#6, 0x14#6, 0x1C#6]
  | .crcFeed _ => [0x08#6, 0x14#6, 0x1C#6]
  | .crcFinal => [0x08#6, 0x18#6]
  | .crcVerify => [0x08#6, 0x18#6]
  | .typeLoad a => if a then [0x08#6, 0x14#6, 0x1C#6, 0x20#6, 0x24#6] else [0x08#6, 0x20#6, 0x24#6]
  | .typeText len a =>
    if len = 4#4 ∧ a = true then [0x08#6, 0x14#6, 0x1C#6, 0x20#6, 0x24#6] else [0x08#6, 0x20#6, 0x24#6]
  | .errClr => [0x08#6]

/-- The STATUS bits a command may change: the "flags written" of its rule (40_typecode.md R74, R75; 41_crc.md R84
to R87; 42_control.md R95, R96), with bit 3, ERR, following ERR_CODE (10_state.md R26). -/
def statusWritten : Instr → Word
  | .nop => 0x000#32
  | .crcInit => 0x203#32
  | .crcFeed _ => 0x203#32
  | .crcFinal => 0x200#32
  | .crcVerify => 0x3FB#32
  | .typeLoad a => if a then 0x3FF#32 else 0x1FC#32
  | .typeText len a => if len = 4#4 ∧ a = true then 0x3FF#32 else 0x1FC#32
  | .errClr => 0x1F8#32

/-- The 46 bytes of the document's reference vector: "RuSt" and "This is where your secret message will be!"
(95_test_vectors.md L1-5; 41_crc.md R80, R86, R92). -/
def referenceMessage : List Byte :=
  bytesOf 0x52755374#32 ++ bytesOf 0x54686973#32 ++ bytesOf 0x20697320#32 ++ bytesOf 0x77686572#32 ++
  bytesOf 0x6520796F#32 ++ bytesOf 0x75722073#32 ++ bytesOf 0x65637265#32 ++ bytesOf 0x74206D65#32 ++
  bytesOf 0x73736167#32 ++ bytesOf 0x65207769#32 ++ bytesOf 0x6C6C2062#32 ++ firstBytes 0x65210000#32 2

end Sys2Proof.Machine
end

