-- ==== Sys2Proof/Certificates/Slice0/Obligations.lean ====
section
/-! DEFINITION. The statements for the provers, from the numbered rules of spec/. Each docstring names the rule.
A state `{ s with pending := e :: rest }` is any state of the machine whose next event is `e`. -/

open Sys2Proof Sys2Proof.Machine

/-! ### The command words (30_encoding.md) -/

/-- R57, R62: command words written out from the spec's table, and what they decode to. -/
def Obligations.CommandWordsDecode : Prop :=
  decode 0b00000000000000000000000000000000#32 = .command .nop ∧
  decode 0b00000000000000000000000000000001#32 = .command .crcInit ∧
  decode 0b00000000000000000000001000000010#32 = .command (.crcFeed 3#3) ∧
  decode 0b00000000000000000000000000000011#32 = .command .crcFinal ∧
  decode 0b00000000000000000000000000000100#32 = .command .crcVerify ∧
  decode 0b00000000000000000000000100010000#32 = .command (.typeLoad true) ∧
  decode 0b00000000000000000111000100010001#32 = .command (.typeText 7#4 true) ∧
  decode 0b00000000000000000000000000100000#32 = .command .errClr

/-- R57, R59, R60, R62: decoding the word of a well-formed command gives the command back, with every operand. -/
def Obligations.DecodeOfEncode : Prop :=
  ∀ i : Instr, i.wellFormed = true → decode (encode i) = .command i

/-- R57, R62: a word that decodes to a command is the one word of that command, and the command is well-formed. -/
def Obligations.EncodeOfDecode : Prop :=
  ∀ (w : Word) (i : Instr), decode w = .command i → i.wellFormed = true ∧ encode i = w

/-- "No two rows match the same word, so the order of the tests does not matter": the sentence R62 marks as derived
from the table of R57. -/
def Obligations.AtMostOneRowAccepts : Prop :=
  ∀ (w : Word) (r r' : Row), r ∈ opcodeRows → r' ∈ opcodeRows →
    r.accepts w = true → r'.accepts w = true → r = r'

/-- R63: with an assigned OP, a word is Illegal exactly when a reserved bit is 1, in terms of the fields of R57. -/
def Obligations.ReservedBitMakesIllegal : Prop :=
  (∀ w : Word, opcodeField w ∈ [0x00#8, 0x01#8, 0x02#8, 0x03#8, 0x04#8, 0x10#8, 0x11#8, 0x20#8] →
    (decode w = .illegal .reservedBit ↔
      ¬ (w.extractLsb' 16 16 = 0#16 ∧
        (opcodeField w ∈ [0x00#8, 0x01#8, 0x03#8, 0x04#8, 0x20#8] → w.extractLsb' 8 8 = 0#8) ∧
        (opcodeField w = 0x02#8 → w.extractLsb' 10 6 = 0#6) ∧
        (opcodeField w = 0x10#8 → w.extractLsb' 9 7 = 0#7) ∧
        (opcodeField w = 0x11#8 → w.extractLsb' 9 3 = 0#3)))) ∧
  decode 0x00010002#32 = .illegal .reservedBit ∧
  decode 0x00000203#32 = .illegal .reservedBit ∧
  decode 0x00004211#32 = .illegal .reservedBit

/-- R64: a word with an unassigned OP is Illegal, and writing it to CMD records ILLEGAL_CMD. -/
def Obligations.UnassignedOpcodeRecordsIllegalCmd : Prop :=
  ∀ w : Word, opcodeField w ∉ [0x00#8, 0x01#8, 0x02#8, 0x03#8, 0x04#8, 0x10#8, 0x11#8, 0x20#8] →
    decode w = .illegal (.unassignedOpcode (opcodeField w)) ∧
    ∀ s : State, performCommand w s = .next (s.withBlock (s.block.recordError .illegalCmd))

/-! ### One step (20_memory.md, 30_encoding.md, 60_exceptions.md, 70_reset_and_hazards.md) -/

/-- R58: a 4-byte write to offset 0x10 performs the command its word decodes to, in the same step; an Illegal word has
the effect of R104. What the step adds around `exec` is the delivery of the access and its response OKAY. -/
def Obligations.StepPerformsWrittenCommand : Prop :=
  ∀ (s : State) (w : Word) (rest : List Event),
    (∀ i : Instr, decode w = .command i →
      step { s with pending := .access ⟨0x10#6, .word, .write w⟩ :: rest } =
        acknowledge ⟨0x10#6, .word, .write w⟩ (exec i { s with pending := rest })) ∧
    (∀ why : Illegal, decode w = .illegal why →
      step { s with pending := .access ⟨0x10#6, .word, .write w⟩ :: rest } =
        .next { block := s.block.recordError .illegalCmd
                pending := rest
                completed := s.completed ++ [⟨⟨0x10#6, .word, .write w⟩, .okay⟩] })

/-- R104: an Illegal word changes ERR_CODE and MULTI_ERR by record_error(ILLEGAL_CMD) and nothing else; the example
`WR CMD, 0x00000005` from a clean state gives ERR_CODE = 4. -/
def Obligations.IllegalWordChangesErrorRecordOnly : Prop :=
  (∀ (s : State) (w : Word) (why : Illegal), decode w = .illegal why →
    performCommand w s = .next { s with block := { s.block with
      errCode := if s.block.errCode = .none then .illegalCmd else s.block.errCode
      multiErr := if s.block.errCode = .none then s.block.multiErr else true } }) ∧
  (∀ s : State, s.block.errCode = .none →
    ∃ t, performCommand 0x00000005#32 s = .next t ∧ t.block.statusWord.extractLsb' 4 4 = 4#4)

/-- R128: with nothing pending the block waits, and a step leaves the machine as it is. -/
def Obligations.IdleStepWaits : Prop :=
  ∀ s : State, step { s with pending := [] } = .next { s with pending := [] }

/-- R118 and R30: a reset sets every piece of the block's state, in one step, and `irq` to 0. -/
def Obligations.ResetSetsEveryRegister : Prop :=
  ∀ (s : State) (rest : List Event), ∃ t : State,
    step { s with pending := .reset :: rest } = .next t ∧
    t = { block :=
            { validSel := false, irqEn := false, crcMatch := false, crcMismatch := false, typeOk := false,
              errCode := .none, multiErr := false, outValid := false, data := 0x00000000#32,
              crcState := 0xFFFFFFFF#32, crcOut := 0x00000000#32, byteCount := 0x00000000#32,
              typeReg := 0x00000000#32 }
          pending := rest
          completed := s.completed } ∧
    t.block.irq = false

/-- R30: what each of the ten word registers of R34's map reads as after reset, with OUT_BE and `irq`. CMD holds no
state and reads 0 (R19). -/
def Obligations.ResetReadValues : Prop :=
  State.reset.block.readWord? 0x00#6 = some 0x43524331#32 ∧
  State.reset.block.readWord? 0x04#6 = some 0x00000000#32 ∧
  State.reset.block.readWord? 0x08#6 = some 0x00000000#32 ∧
  State.reset.block.readWord? 0x0C#6 = some 0x00000000#32 ∧
  State.reset.block.readWord? 0x10#6 = some 0x00000000#32 ∧
  State.reset.block.readWord? 0x14#6 = some 0xFFFFFFFF#32 ∧
  State.reset.block.readWord? 0x18#6 = some 0x00000000#32 ∧
  State.reset.block.readWord? 0x1C#6 = some 0x00000000#32 ∧
  State.reset.block.readWord? 0x20#6 = some 0x00000000#32 ∧
  State.reset.block.readWord? 0x24#6 = some 0x00000000#32 ∧
  State.reset.block.readByte? 0x28#6 = some 0x00#8 ∧
  State.reset.block.readByte? 0x29#6 = some 0x00#8 ∧
  State.reset.block.readByte? 0x2A#6 = some 0x00#8 ∧
  State.reset.block.readByte? 0x2B#6 = some 0x00#8 ∧
  State.reset.block.irq = false

/-- R119: an access that overlaps the assertion of `rst` is refused. -/
def Obligations.ResetOverlapRefused : Prop :=
  ∀ (s : State) (r : Request) (rest : List Event),
    step { s with pending := .resetOverlapping r :: rest } = .refused .resetOverlapsAccess

/-- The inference the spec marks as derived at R121 (from R30, R83, R84): the CRC part of the state after reset is its
state after CRC.INIT, from whatever state CRC.INIT is issued; CRC_OUT after reset is the checksum of the empty message
and OUT_VALID is 0. -/
def Obligations.ResetServesAsCrcInit : Prop :=
  (∀ s : State, ∃ t, exec .crcInit s = .next t ∧
    t.block.crcState = State.reset.block.crcState ∧ t.block.byteCount = State.reset.block.byteCount ∧
    t.block.outValid = State.reset.block.outValid ∧ t.block.crcMatch = State.reset.block.crcMatch ∧
    t.block.crcMismatch = State.reset.block.crcMismatch) ∧
  State.reset.block.crcState = 0xFFFFFFFF#32 ∧ State.reset.block.byteCount = 0#32 ∧
  State.reset.block.outValid = false ∧ State.reset.block.crcMatch = false ∧ State.reset.block.crcMismatch = false ∧
  State.reset.block.crcOut = crc32 []

/-- R35 and R105: an access gets an ERROR response exactly when R35's pseudocode does not admit it; then nothing else
changes, and the access still counts as one step. The machine answers from the register map of R34, not from
`admitted`. -/
def Obligations.BusErrorExactlyWhenNotAdmitted : Prop :=
  ∀ (s : State) (r : Request) (rest : List Event), ∃ (t : State) (answer : Response),
    step { s with pending := .access r :: rest } = .next t ∧
    t.pending = rest ∧ t.completed = s.completed ++ [⟨r, answer⟩] ∧
    ((∃ a, answer = .busError a) ↔ r.admitted = false) ∧
    (r.admitted = false → answer = .busError r.addr ∧ t.block = s.block)

/-- R34, R36: the value a 4-byte read of each register returns, with no state changed but the log of the access. -/
def Obligations.WordReadsAnswerRegisters : Prop :=
  ∀ (s : State) (rest : List Event) (a : Offset) (v : Word),
    (a, v) ∈ [(0x00#6, 0x43524331#32), (0x04#6, s.block.ctrlWord), (0x08#6, s.block.statusWord),
      (0x0C#6, s.block.data), (0x10#6, 0x00000000#32), (0x14#6, s.block.crcState), (0x18#6, s.block.crcOut),
      (0x1C#6, s.block.byteCount), (0x20#6, s.block.typeReg), (0x24#6, s.block.typeFlagsWord)] →
    step { s with pending := .access ⟨a, .word, .read⟩ :: rest } =
      .next { block := s.block, pending := rest, completed := s.completed ++ [⟨⟨a, .word, .read⟩, .word v⟩] }

/-- R36, R39: a read has no side effect, and the same read again answers the same. -/
def Obligations.ReadsAreIdempotent : Prop :=
  ∀ (s : State) (r : Request) (rest : List Event), r.dir = .read →
    ∃ answer : Response,
      run 2 { s with pending := .access r :: .access r :: rest } =
        .next { block := s.block, pending := rest, completed := s.completed ++ [⟨r, answer⟩, ⟨r, answer⟩] }

/-- R25, R36, R40, R88, and the inference the spec marks as derived at R42: the four byte reads of OUT_BE answer the
bytes of CRC_OUT, most significant first, and with no command between they are the word the 4-byte read of CRC_OUT
answers. -/
def Obligations.OutBeBytesFormCrcOut : Prop :=
  ∀ (s : State) (rest : List Event), ∃ (w : Word) (b0 b1 b2 b3 : Byte),
    run 5 { s with
      pending := .access ⟨0x18#6, .word, .read⟩ :: .access ⟨0x28#6, .byte, .read⟩ :: .access ⟨0x29#6, .byte, .read⟩ ::
        .access ⟨0x2A#6, .byte, .read⟩ :: .access ⟨0x2B#6, .byte, .read⟩ :: rest } =
    .next { block := s.block
            pending := rest
            completed := s.completed ++
              [⟨⟨0x18#6, .word, .read⟩, .word w⟩, ⟨⟨0x28#6, .byte, .read⟩, .byte b0⟩,
               ⟨⟨0x29#6, .byte, .read⟩, .byte b1⟩, ⟨⟨0x2A#6, .byte, .read⟩, .byte b2⟩,
               ⟨⟨0x2B#6, .byte, .read⟩, .byte b3⟩] } ∧
    w = s.block.crcOut ∧
    b0 = w.extractLsb' 24 8 ∧ b1 = w.extractLsb' 16 8 ∧ b2 = w.extractLsb' 8 8 ∧ b3 = w.extractLsb' 0 8 ∧
    b0 ++ b1 ++ b2 ++ b3 = w

/-- R15, R37: a write of v to CTRL stores v[0] and v[1] and nothing else, and CTRL then reads v[1:0] with bits 31:2
zero. -/
def Obligations.CtrlWriteStoresTwoBits : Prop :=
  ∀ (s : State) (v : Word) (rest : List Event),
    step { s with pending := .access ⟨0x04#6, .word, .write v⟩ :: rest } =
      .next { block := { s.block with validSel := v.getLsbD 0, irqEn := v.getLsbD 1 }
              pending := rest
              completed := s.completed ++ [⟨⟨0x04#6, .word, .write v⟩, .okay⟩] } ∧
    (s.block.writeCtrl v).readWord? 0x04#6 = some (v &&& 0x00000003#32)

/-- R18, R37: a write of v to DATA stores all 32 bits and nothing else, and DATA then reads v. -/
def Obligations.DataWriteStoresWord : Prop :=
  ∀ (s : State) (v : Word) (rest : List Event),
    step { s with pending := .access ⟨0x0C#6, .word, .write v⟩ :: rest } =
      .next { block := { s.block with data := v }
              pending := rest
              completed := s.completed ++ [⟨⟨0x0C#6, .word, .write v⟩, .okay⟩] } ∧
    (s.block.writeData v).readWord? 0x0C#6 = some v

/-- R16, R26, R99: the fields of the word STATUS reads as, and the code bits 7:4 hold for each of the five errors of
R99's table. The bound of 4 needs no premise, because ERR_CODE is one of five names (assumption log 8). -/
def Obligations.StatusWordFields : Prop :=
  ∀ b : Block,
    b.statusWord.getLsbD 0 = b.crcMatch ∧ b.statusWord.getLsbD 1 = b.crcMismatch ∧
    b.statusWord.getLsbD 2 = b.typeOk ∧
    (b.statusWord.getLsbD 3 = true ↔ b.statusWord.extractLsb' 4 4 ≠ 0#4) ∧
    b.statusWord.extractLsb' 4 4 = b.errCode.bits ∧ b.statusWord.getLsbD 8 = b.multiErr ∧
    b.statusWord.getLsbD 9 = b.outValid ∧ b.statusWord.extractLsb' 10 22 = 0#22 ∧
    b.statusWord.extractLsb' 4 4 ≤ 4#4 ∧
    (b.errCode = .none → b.statusWord.extractLsb' 4 4 = 0#4) ∧
    (b.errCode = .checksumMismatch → b.statusWord.extractLsb' 4 4 = 1#4) ∧
    (b.errCode = .invalidTypeCode → b.statusWord.extractLsb' 4 4 = 2#4) ∧
    (b.errCode = .invalidLength → b.statusWord.extractLsb' 4 4 = 3#4) ∧
    (b.errCode = .illegalCmd → b.statusWord.extractLsb' 4 4 = 4#4)

/-- R33: exactly the bus addresses P_BASE to P_BASE + 0x3F reach the block, each as its offset, and P_BASE is a
multiple of 0x40. -/
def Obligations.WindowRouting : Prop :=
  Config.pBase % 0x40 = 0 ∧
  ∀ (a : Nat) (size : Size) (dir : Dir),
    ((routeAccess a size dir).isSome ↔ Config.pBase ≤ a ∧ a ≤ Config.pBase + 0x3F) ∧
    ∀ r, routeAccess a size dir = some r → Config.pBase + r.addr.toNat = a ∧ r.size = size ∧ r.dir = dir

/-- R66, R67: every access of a well-formed statement is one the window admits; WR, RD, RDB and each command
statement stand for the one access of R66's table, with its offset and its word; a pseudo-instruction is two accesses, a
write of DATA and then a command; and the word of a string immediate. R66 speaks of ASCII strings: that a character of
0x80 or above counts too is the model's choice (assumption log 13). -/
def Obligations.StatementsExpandToAdmittedAccesses : Prop :=
  (∀ st : Stmt, st.wellFormed = true → ∀ r ∈ st.expand, r.admitted = true) ∧
  (∀ imm : Imm,
    (Stmt.wr .ctrl imm).expand = [⟨0x04#6, .word, .write imm.value⟩] ∧
    (Stmt.wr .data imm).expand = [⟨0x0C#6, .word, .write imm.value⟩] ∧
    (Stmt.wr .cmd imm).expand = [⟨0x10#6, .word, .write imm.value⟩]) ∧
  (∀ (reg : Reg) (a : Offset),
    (reg, a) ∈ [(Reg.id, 0x00#6), (.ctrl, 0x04#6), (.status, 0x08#6), (.data, 0x0C#6), (.cmd, 0x10#6),
      (.crcState, 0x14#6), (.crcOut, 0x18#6), (.byteCount, 0x1C#6), (.typeCode, 0x20#6), (.typeFlags, 0x24#6)] →
    (Stmt.rd reg).expand = [⟨a, .word, .read⟩]) ∧
  (∀ (k : Nat) (a : Offset), (k, a) ∈ [(0, 0x28#6), (1, 0x29#6), (2, 0x2A#6), (3, 0x2B#6)] →
    (Stmt.rdb k).expand = [⟨a, .byte, .read⟩]) ∧
  (∀ (i : Instr) (w : Word),
    (i, w) ∈ [(Instr.nop, 0x00000000#32), (.crcInit, 0x00000001#32), (.crcFinal, 0x00000003#32),
      (.crcVerify, 0x00000004#32), (.typeLoad false, 0x00000010#32), (.typeLoad true, 0x00000110#32),
      (.errClr, 0x00000020#32)] →
    (Stmt.command i).expand = [⟨0x10#6, .word, .write w⟩]) ∧
  (∀ n1 : BitVec 2, (Stmt.command (.crcFeed (feedCount n1))).expand =
    [⟨0x10#6, .word, .write (0x00000002#32 ||| (n1.setWidth 32 <<< 8))⟩]) ∧
  (∀ len : BitVec 4,
    (Stmt.command (.typeText len false)).expand =
      [⟨0x10#6, .word, .write (0x00000011#32 ||| (len.setWidth 32 <<< 12))⟩] ∧
    (Stmt.command (.typeText len true)).expand =
      [⟨0x10#6, .word, .write (0x00000011#32 ||| (len.setWidth 32 <<< 12) ||| 0x00000100#32)⟩]) ∧
  (∀ (n1 : BitVec 2) (imm : Imm),
    (Stmt.feedw imm).expand = [⟨0x0C#6, .word, .write imm.value⟩, ⟨0x10#6, .word, .write 0x00000302#32⟩] ∧
    (Stmt.feedb (feedCount n1) imm).expand =
      [⟨0x0C#6, .word, .write imm.value⟩, ⟨0x10#6, .word, .write (0x00000002#32 ||| (n1.setWidth 32 <<< 8))⟩] ∧
    (Stmt.chunktype imm).expand = [⟨0x0C#6, .word, .write imm.value⟩, ⟨0x10#6, .word, .write 0x00000110#32⟩] ∧
    (Stmt.expect imm).expand = [⟨0x0C#6, .word, .write imm.value⟩, ⟨0x10#6, .word, .write 0x00000004#32⟩]) ∧
  (∀ v : Word, (Imm.hex v).value = v) ∧
  (∀ c0 c1 c2 c3 : Byte,
    (Imm.text [c0, c1, c2, c3]).value = c0 ++ c1 ++ c2 ++ c3 ∧
    (Imm.text [c0, c1, c2]).value = c0 ++ c1 ++ c2 ++ 0x00#8 ∧
    (Imm.text [c0, c1]).value = c0 ++ c1 ++ 0x0000#16 ∧
    (Imm.text [c0]).value = c0 ++ 0x000000#24) ∧
  (Imm.text [0x52#8, 0x75#8, 0x53#8, 0x74#8]).value = 0x52755374#32 ∧
  (Imm.text [0x65#8, 0x21#8]).value = 0x65210000#32

/-! ### Each command's result (40_typecode.md, 41_crc.md, 42_control.md) -/

/-- R95: NOP does nothing; a word with OP = 0 and any other bit set is Illegal. -/
def Obligations.NopChangesNothing : Prop :=
  (∀ s : State, exec .nop s = .next s) ∧ decode 0x00000000#32 = .command .nop ∧
  ∀ w : Word, opcodeField w = 0x00#8 → w ≠ 0x00000000#32 → decode w = .illegal .reservedBit

/-- R84: CRC.INIT, and that two in a row equal one. -/
def Obligations.CrcInitStartsMessage : Prop :=
  decode 0x00000001#32 = .command .crcInit ∧
  ∀ s : State,
    exec .crcInit s = .next { s with block := { s.block with
      crcState := 0xFFFFFFFF#32, byteCount := 0#32, outValid := false, crcMatch := false, crcMismatch := false } } ∧
    ∀ t, exec .crcInit s = .next t → exec .crcInit t = .next t

/-- R85 with R59, R81, R82: CRC.FEED of N = N1 + 1 bytes for every N1, and the rule's example. -/
def Obligations.CrcFeedAbsorbsFirstBytes : Prop :=
  (∀ (n1 : BitVec 2) (s : State),
    decode (0x00000002#32 ||| (n1.setWidth 32 <<< 8)) = .command (.crcFeed (feedCount n1)) ∧
    exec (.crcFeed (feedCount n1)) s = .next { s with block := { s.block with
      crcState := ([s.block.data.extractLsb' 24 8, s.block.data.extractLsb' 16 8, s.block.data.extractLsb' 8 8,
        s.block.data.extractLsb' 0 8].take (n1.toNat + 1)).foldl crcByte s.block.crcState
      byteCount := s.block.byteCount + BitVec.ofNat 32 (n1.toNat + 1)
      outValid := false, crcMatch := false, crcMismatch := false } }) ∧
  (∀ s : State, s.block.crcState = 0xFFFFFFFF#32 → s.block.byteCount = 0#32 → s.block.data = 0x52755374#32 →
    ∃ t, exec (.crcFeed 4#3) s = .next t ∧ t.block.crcState = 0x2B7BF6C3#32 ∧ t.block.byteCount = 4#32)

/-- R86: CRC.FINAL, that twice equals once, and the rule's example. -/
def Obligations.CrcFinalProducesChecksum : Prop :=
  decode 0x00000003#32 = .command .crcFinal ∧
  (∀ s : State,
    exec .crcFinal s = .next { s with block := { s.block with
      crcOut := s.block.crcState ^^^ 0xFFFFFFFF#32, outValid := true } } ∧
    ∀ t, exec .crcFinal s = .next t → exec .crcFinal t = .next t) ∧
  ∀ s : State, s.block.crcState = 0x542E27B1#32 →
    ∃ t, exec .crcFinal s = .next t ∧ t.block.crcOut = 2882656334#32

/-- R87: CRC.VERIFY, when the computed checksum equals DATA and when it does not. -/
def Obligations.CrcVerifyCompares : Prop :=
  decode 0x00000004#32 = .command .crcVerify ∧
  ∀ s : State,
    (s.block.crcState ^^^ 0xFFFFFFFF#32 = s.block.data →
      exec .crcVerify s = .next { s with block := { s.block with
        crcOut := s.block.crcState ^^^ 0xFFFFFFFF#32, outValid := true, crcMatch := true, crcMismatch := false } }) ∧
    (s.block.crcState ^^^ 0xFFFFFFFF#32 ≠ s.block.data →
      exec .crcVerify s = .next { s with block := { s.block with
        crcOut := s.block.crcState ^^^ 0xFFFFFFFF#32, outValid := true, crcMatch := false, crcMismatch := true
        errCode := if s.block.errCode = .none then .checksumMismatch else s.block.errCode
        multiErr := if s.block.errCode = .none then s.block.multiErr else true } })

/-- R74 with R82 and R101: TYPE.LOAD for either A, the checksum state absorbing the four bytes whether or not they are
letters, and the rule's example. -/
def Obligations.TypeLoadValidates : Prop :=
  (∀ (a : Bool) (s : State),
    decode (if a then 0x00000110#32 else 0x00000010#32) = .command (.typeLoad a) ∧
    exec (.typeLoad a) s = .next { s with block := { s.block with
      typeReg := s.block.data
      typeOk := alpha4 s.block.data
      crcState := if a then crcBytes s.block.crcState (bytesOf s.block.data) else s.block.crcState
      byteCount := if a then s.block.byteCount + 4#32 else s.block.byteCount
      outValid := !a && s.block.outValid
      crcMatch := !a && s.block.crcMatch
      crcMismatch := !a && s.block.crcMismatch
      errCode := if alpha4 s.block.data = false ∧ s.block.errCode = .none then .invalidTypeCode else s.block.errCode
      multiErr := if alpha4 s.block.data = false ∧ s.block.errCode ≠ .none then true else s.block.multiErr } }) ∧
  ∀ s : State, s.block.data = 0x52755374#32 →
    ∃ t, exec (.typeLoad false) s = .next t ∧ t.block.typeReg = 0x52755374#32 ∧ t.block.typeOk = true ∧
      t.block.typeFlagsWord = 0x0000003B#32

/-- R75: TYPE.TEXT. With LEN other than 4 it records INVALID_LENGTH and absorbs nothing, whatever the bytes and A;
"with LEN = 4 the command equals TYPE.LOAD with the same A". The rule's examples "RuSt", "Ru1t" and "Ru". -/
def Obligations.TypeTextChecksLengthThenLoads : Prop :=
  (∀ (len : BitVec 4) (a : Bool),
    decode (0x00000011#32 ||| (len.setWidth 32 <<< 12) ||| (if a then 0x00000100#32 else 0x00000000#32)) =
      .command (.typeText len a)) ∧
  (∀ (len : BitVec 4) (a : Bool) (s : State), len ≠ 4#4 →
    exec (.typeText len a) s = .next { s with block := { s.block with
      typeReg := s.block.data
      typeOk := false
      errCode := if s.block.errCode = .none then .invalidLength else s.block.errCode
      multiErr := if s.block.errCode = .none then s.block.multiErr else true } }) ∧
  (∀ (a : Bool) (s : State),
    exec (.typeText 4#4 a) s = exec (.typeLoad a) s ∧
    exec (.typeText 4#4 a) s = .next { s with block := { s.block with
      typeReg := s.block.data
      typeOk := alpha4 s.block.data
      crcState := if a then crcBytes s.block.crcState (bytesOf s.block.data) else s.block.crcState
      byteCount := if a then s.block.byteCount + 4#32 else s.block.byteCount
      outValid := !a && s.block.outValid
      crcMatch := !a && s.block.crcMatch
      crcMismatch := !a && s.block.crcMismatch
      errCode := if alpha4 s.block.data = false ∧ s.block.errCode = .none then .invalidTypeCode else s.block.errCode
      multiErr := if alpha4 s.block.data = false ∧ s.block.errCode ≠ .none then true else s.block.multiErr } }) ∧
  (∀ s : State, s.block.errCode = .none → s.block.data = 0x52753174#32 →
    ∃ t, exec (.typeText 4#4 false) s = .next t ∧ t.block.typeOk = false ∧ t.block.errCode = .invalidTypeCode ∧
      t.block.typeFlagsWord = 0x00000000#32) ∧
  (∀ s : State, s.block.errCode = .none → s.block.data = 0x52750000#32 →
    ∃ t, exec (.typeText 2#4 false) s = .next t ∧ t.block.typeOk = false ∧ t.block.errCode = .invalidLength) ∧
  (∀ s : State, s.block.data = 0x52755374#32 →
    ∃ t, exec (.typeText 4#4 false) s = .next t ∧ t.block.typeOk = true ∧ t.block.errCode = s.block.errCode)

/-- R96: ERR.CLR clears ERR_CODE and MULTI_ERR and nothing else, so STATUS.ERR and `irq` read 0; a command that leaves
a smaller ERR_CODE than it found is ERR.CLR; reset clears it too; the example 0x0000021A to 0x00000202. -/
def Obligations.ErrClrClearsRecord : Prop :=
  decode 0x00000020#32 = .command .errClr ∧
  (∀ s : State, ∃ t : State, exec .errClr s = .next t ∧
    t = { s with block := { s.block with errCode := .none, multiErr := false } } ∧
    t.block.statusWord.getLsbD 3 = false ∧ t.block.irq = false ∧
    (s.block.statusWord = 0x0000021A#32 → t.block.statusWord = 0x00000202#32)) ∧
  (∀ (i : Instr) (s u : State), exec i s = .next u → u.block.errCode.bits < s.block.errCode.bits → i = .errClr) ∧
  ∀ (s : State) (rest : List Event), ∃ t, step { s with pending := .reset :: rest } = .next t ∧
    t.block.errCode = .none

/-! ### Frames and whole-machine rules -/

/-- R11, R14, R18, R34: what a command leaves unchanged, through the window's own reads. Every command leaves CTRL,
DATA, ID and CMD, and every register its rule does not name; OUT_BE changes only by CRC.FINAL and CRC.VERIFY; no
command touches the bus side. -/
def Obligations.CommandFrameInWindow : Prop :=
  ∀ (i : Instr) (s t : State), exec i s = .next t →
    (∀ a : Offset, a ∉ wordsWritten i → t.block.readWord? a = s.block.readWord? a) ∧
    (∀ a : Offset, i ≠ .crcFinal → i ≠ .crcVerify → t.block.readByte? a = s.block.readByte? a) ∧
    (t.block.validSel = s.block.validSel ∧ t.block.irqEn = s.block.irqEn ∧ t.block.data = s.block.data) ∧
    t.pending = s.pending ∧ t.completed = s.completed

/-- R11, R16 and the "flags written" of R74, R75, R84 to R87, R95, R96: every STATUS bit outside the command's own
flags is unchanged. -/
def Obligations.CommandFrameInStatus : Prop :=
  ∀ (i : Instr) (s t : State), exec i s = .next t →
    (t.block.statusWord ^^^ s.block.statusWord) &&& ~~~(statusWritten i) = 0#32

/-- R98: no command traps, stalls or stops the block, whatever error is recorded; each answers a next state. -/
def Obligations.CommandsAlwaysComplete : Prop :=
  ∀ (i : Instr) (s : State), ∃ t, exec i s = .next t

/-- R38, R98, R105: with an event pending, a step answers a next state and takes exactly that event, but for an access
that overlaps reset (R119). With nothing pending there is a step too, and it takes nothing: that is the model's reading
of R128 (assumption log 3). -/
def Obligations.StepNeverStops : Prop :=
  (∀ (s : State) (e : Event) (rest : List Event), (∀ r : Request, e ≠ .resetOverlapping r) →
    ∃ t, step { s with pending := e :: rest } = .next t ∧ t.pending = rest) ∧
  ∀ s : State, s.pending = [] → ∃ t, step s = .next t ∧ t.pending = []

/-- R101: record_error keeps the first code and sets MULTI_ERR at later ones; and the record is sticky: a write of
ERR.CLR and a reset clear it, and no other event changes a recorded ERR_CODE or clears MULTI_ERR. -/
def Obligations.FirstErrorIsSticky : Prop :=
  (∀ (b : Block) (code : ErrCode),
    (b.errCode = .none → (b.recordError code).errCode = code ∧ (b.recordError code).multiErr = b.multiErr) ∧
    (b.errCode ≠ .none → (b.recordError code).errCode = b.errCode ∧ (b.recordError code).multiErr = true)) ∧
  ∀ (s t : State) (e : Event) (rest : List Event),
    step { s with pending := e :: rest } = .next t →
    (e = .reset ∨ e = .access ⟨0x10#6, .word, .write 0x00000020#32⟩ →
      t.block.errCode = .none ∧ t.block.multiErr = false) ∧
    (e ≠ .reset → e ≠ .access ⟨0x10#6, .word, .write 0x00000020#32⟩ →
      (s.block.errCode ≠ .none → t.block.errCode = s.block.errCode) ∧
      (s.block.multiErr = true → t.block.multiErr = true))

/-- R107: a command records at most one error, so from a clean record MULTI_ERR stays 0, and the code is the one the
command's rule names: INVALID_LENGTH alone when LEN is not 4, whatever the bytes; ILLEGAL_CMD alone for an Illegal
word. -/
def Obligations.OneErrorPerCommand : Prop :=
  ∀ (w : Word) (s t : State), s.block.errCode = .none → s.block.multiErr = false →
    performCommand w s = .next t →
    t.block.multiErr = false ∧
    (t.block.errCode = .checksumMismatch → decode w = .command .crcVerify) ∧
    (t.block.errCode = .invalidLength ↔ ∃ len a, decode w = .command (.typeText len a) ∧ len ≠ 4#4) ∧
    (t.block.errCode = .invalidTypeCode → alpha4 s.block.data = false ∧
      ∃ a, decode w = .command (.typeLoad a) ∨ decode w = .command (.typeText 4#4 a)) ∧
    (t.block.errCode = .illegalCmd ↔ (decode w).instr? = none)

/-- R109: `irq` is CTRL bit 1 and STATUS bit 3, as both read. -/
def Obligations.IrqIsEnableAndError : Prop :=
  ∀ b : Block, b.irq = (b.ctrlWord.getLsbD 1 && b.statusWord.getLsbD 3)

/-- The inference the spec marks as derived at R110 (from R101, R109, R15): from a high `irq`, a step lowers it
exactly when it is ERR.CLR, a CTRL write with bit 1 = 0, or a reset; setting IRQ_EN while STATUS.ERR = 1 raises it at
once; a new error keeps it high and sets MULTI_ERR. -/
def Obligations.IrqFallsOnlyByAcknowledge : Prop :=
  (∀ (s t : State) (e : Event) (rest : List Event), s.block.irq = true →
    step { s with pending := e :: rest } = .next t →
    (t.block.irq = false ↔
      e = .access ⟨0x10#6, .word, .write 0x00000020#32⟩ ∨
      (∃ v : Word, e = .access ⟨0x04#6, .word, .write v⟩ ∧ v.getLsbD 1 = false) ∨ e = .reset)) ∧
  (∀ (s : State) (v : Word) (rest : List Event), s.block.statusWord.getLsbD 3 = true → v.getLsbD 1 = true →
    ∃ t, step { s with pending := .access ⟨0x04#6, .word, .write v⟩ :: rest } = .next t ∧ t.block.irq = true) ∧
  (∀ (b : Block) (code : ErrCode), b.irq = true →
    (b.recordError code).irq = true ∧ (b.recordError code).multiErr = true)

/-- Every step keeps the relations between the block's registers (`Block.Consistent`), from every state that has them.
They are inferences from the commands' rules: the spec marks two of them as derived, at R16 ("never both 1") and at
R76. -/
def Obligations.ConsistentKeptByStep : Prop :=
  ∀ s t : State, s.block.Consistent → step s = .next t → t.block.Consistent

/-- R30: the state after reset has those relations. -/
def Obligations.ConsistentAtReset : Prop := State.reset.block.Consistent

/-- The inference the spec marks as derived at R76 (from R74, R75, R30): only the two type commands and a reset write
TYPE_OK, and it becomes 1 only with DATA checked and written to TYPE in the same step. -/
def Obligations.TypeOkOnlyByValidation : Prop :=
  (∀ (s t : State) (e : Event) (rest : List Event), step { s with pending := e :: rest } = .next t →
    t.block.typeOk ≠ s.block.typeOk →
    e = .reset ∨ ∃ (w : Word) (i : Instr), e = .access ⟨0x10#6, .word, .write w⟩ ∧ decode w = .command i ∧
      ((∃ a, i = .typeLoad a) ∨ ∃ len a, i = .typeText len a)) ∧
  (∀ (s t : State) (e : Event) (rest : List Event), step { s with pending := e :: rest } = .next t →
    s.block.typeOk = false → t.block.typeOk = true →
    t.block.typeReg = s.block.data ∧ alpha4 s.block.data = true) ∧
  (∀ (s t : State), (s.block.typeOk = true → alpha4 s.block.typeReg = true) → step s = .next t →
    t.block.typeOk = true → alpha4 t.block.typeReg = true) ∧
  State.reset.block.typeOk = false

/-- R128, in the model's reading of it (assumption log 5): a read adds to the observation the response the step gave it,
which is the one the bus side logs; a write and a reset add nothing; and the observation's level is that of `irq`. -/
def Obligations.ObservationGrowsByReads : Prop :=
  ∀ (s t : State) (e : Event) (rest : List Event), step { s with pending := e :: rest } = .next t →
    t.observation.2 = t.block.irq ∧
    (∀ r : Request, e = .access r → r.dir = .read →
      ∃ answer, t.completed = s.completed ++ [⟨r, answer⟩] ∧ t.observation.1 = s.observation.1 ++ [answer] ∧
        t.block = s.block) ∧
    ((∀ r : Request, e = .access r → r.dir ≠ .read) → t.observation.1 = s.observation.1)

/-! ### The type-code flags (40_typecode.md) -/

/-- R68 to R70: on letters, the bit-5 functions agree with "is uppercase" and "is lowercase" (90_conflicts.md C2). -/
def Obligations.CaseFlagsMatchLetterCase : Prop :=
  ∀ t : Word, alpha4 t = true →
    crit t = uppercase (byteOf t 0) ∧ pub t = uppercase (byteOf t 1) ∧ res t = uppercase (byteOf t 2) ∧
    safe t = lowercase (byteOf t 3)

/-- R24, R72, R73: TYPE_FLAGS bit by bit. While TYPE_OK = 0 only ALPHA can be 1; on a validated code the bits are the
document's flags, and VALID follows VALID_SEL. -/
def Obligations.TypeFlagsShowValidatedCode : Prop :=
  ∀ b : Block,
    (b.typeOk = false → b.typeFlagsWord = if alpha4 b.typeReg then 1#32 else 0#32) ∧
    (b.Consistent → b.typeOk = true →
      b.typeFlagsWord.getLsbD 0 = true ∧
      b.typeFlagsWord.getLsbD 1 = uppercase (byteOf b.typeReg 0) ∧
      b.typeFlagsWord.getLsbD 2 = uppercase (byteOf b.typeReg 1) ∧
      b.typeFlagsWord.getLsbD 3 = uppercase (byteOf b.typeReg 2) ∧
      b.typeFlagsWord.getLsbD 4 = lowercase (byteOf b.typeReg 3) ∧
      b.typeFlagsWord.getLsbD 5 =
        (if b.validSel then uppercase (byteOf b.typeReg 2)
         else lowercase (byteOf b.typeReg 1) && uppercase (byteOf b.typeReg 2)) ∧
      b.typeFlagsWord.extractLsb' 6 26 = 0#26)

/-- R72, R73: "a write to CTRL changes VALID at once, with no command", and no other TYPE_FLAGS bit. -/
def Obligations.ValidFollowsCtrlWrite : Prop :=
  ∀ (s : State) (v : Word) (rest : List Event), ∃ t,
    step { s with pending := .access ⟨0x04#6, .word, .write v⟩ :: rest } = .next t ∧
    t.block.typeFlagsWord.getLsbD 5 =
      (s.block.typeOk && if v.getLsbD 0 then res s.block.typeReg else !pub s.block.typeReg && res s.block.typeReg) ∧
    ∀ k : Nat, k ≠ 5 → t.block.typeFlagsWord.getLsbD k = s.block.typeFlagsWord.getLsbD k

/-- R77, with the inference of R76: the text form exists exactly for a validated code, it is the four bytes of TYPE in
order, byte_0 first, they are letters, and equal text forms are equal TYPE words. -/
def Obligations.TextFormIsFourLetters : Prop :=
  (∀ b : Block, b.textForm?.isSome = b.typeOk) ∧
  (∀ (b : Block) (l : List Byte), b.textForm? = some l →
    l = [b.typeReg.extractLsb' 24 8, b.typeReg.extractLsb' 16 8, b.typeReg.extractLsb' 8 8,
      b.typeReg.extractLsb' 0 8]) ∧
  (∀ (b : Block) (l : List Byte), b.Consistent → b.textForm? = some l →
    l.length = 4 ∧ ∀ c ∈ l, alphabetic c = true) ∧
  (∀ (b b' : Block) (l : List Byte), b.textForm? = some l → b'.textForm? = some l → b.typeReg = b'.typeReg)

/-! ### The checksum (41_crc.md) -/

/-- The reflected shift register of R81 computes CRC-32/ISO-HDLC as the model reads the parameters of R80:
`crc32Catalogue`, the division in unreflected form, is the model's own reading of them (assumption log 11, DEDUCED). -/
def Obligations.CrcMatchesCatalogue : Prop := ∀ m : List Byte, crc32 m = crc32Catalogue m

/-- R80, R81, R83, R92: the spec's evaluated examples: crc_byte, the check value, the empty message, the document's
reference checksum 2882656334, and the same message with bit 0 of its first payload byte flipped. -/
def Obligations.CrcExampleValues : Prop :=
  crcByte 0x00000000#32 0x01#8 = 0x77073096#32 ∧
  crcByte 0x00000000#32 0x80#8 = 0xEDB88320#32 ∧
  crcByte 0xFFFFFFFF#32 0x00#8 = 0x2DFD1072#32 ∧
  crc32 [] = 0x00000000#32 ∧
  crc32 [0x31#8, 0x32#8, 0x33#8, 0x34#8, 0x35#8, 0x36#8, 0x37#8, 0x38#8, 0x39#8] = 0xCBF43926#32 ∧
  crc32 referenceMessage = 2882656334#32 ∧
  crc32 (referenceMessage.set 4 0x55#8) = 0x0AE85CA0#32

/-- R80: the residue. A message followed by its checksum, least significant byte first, leaves 0xDEBB20E3. -/
def Obligations.CrcResidue : Prop :=
  ∀ m : List Byte,
    crcBytes 0xFFFFFFFF#32 (m ++ [(crc32 m).extractLsb' 0 8, (crc32 m).extractLsb' 8 8, (crc32 m).extractLsb' 16 8,
      (crc32 m).extractLsb' 24 8]) = 0xDEBB20E3#32

/-- R92, a property of CRCs the spec gives from general knowledge (93 K4, "a lemma to prove"): flipping one bit of a
message changes its checksum, so CRC.VERIFY of the changed message against the original checksum records a mismatch.
-/
def Obligations.SingleBitFlipIsDetected : Prop :=
  ∀ (before after : List Byte) (b : Byte) (j : Nat), j < 8 →
    crc32 (before ++ (b ^^^ (1#8 <<< j)) :: after) ≠ crc32 (before ++ b :: after) ∧
    ∀ s : State, s.block.crcState = crcBytes 0xFFFFFFFF#32 (before ++ (b ^^^ (1#8 <<< j)) :: after) →
      s.block.data = crc32 (before ++ b :: after) →
      ∃ t, exec .crcVerify s = .next t ∧ t.block.crcMismatch = true ∧ t.block.crcMatch = false ∧
        (s.block.errCode = .none → t.block.errCode = .checksumMismatch)

/-- R93: BYTE_COUNT is the only sum, modulo 2^32, with nothing recorded at the wrap. -/
def Obligations.ByteCountWraps : Prop :=
  (∀ (n1 : BitVec 2) (s : State), ∃ t, exec (.crcFeed (feedCount n1)) s = .next t ∧
    t.block.byteCount.toNat = (s.block.byteCount.toNat + n1.toNat + 1) % 2 ^ 32 ∧
    t.block.errCode = s.block.errCode ∧ t.block.multiErr = s.block.multiErr) ∧
  ∀ s : State, s.block.byteCount = 0xFFFFFFFE#32 →
    ∃ t, exec (.crcFeed 4#3) s = .next t ∧ t.block.byteCount = 0x00000002#32

/-- R85 (93 U20): the bytes of DATA beyond N do not matter. Two states that differ only in those bytes give states
that still differ only in DATA. -/
def Obligations.BytesBeyondCountIgnored : Prop :=
  ∀ (n1 : BitVec 2) (s t : State) (v : Word),
    firstBytes v (n1.toNat + 1) = firstBytes s.block.data (n1.toNat + 1) →
    exec (.crcFeed (feedCount n1)) s = .next t →
    exec (.crcFeed (feedCount n1)) (s.withBlock (s.block.writeData v)) =
      .next (t.withBlock (t.block.writeData v))

/-- The inference the spec marks as derived at R83 (from R80, R81, R82, R84): after CRC.INIT and statements that
absorb exactly the bytes of M, CRC_STATE is S_k and its final value is crc32(M); BYTE_COUNT is the number of bytes
modulo 2^32 (R22). Every access of the sequence is one step. -/
def Obligations.AbsorbSequenceComputesCrc : Prop :=
  ∀ (l : List Absorbing) (s : State) (rest : List Event), ∃ t,
    runSequence (absorbSequence l) s rest = .next t ∧ t.pending = rest ∧
    t.block.crcState = (l.flatMap Absorbing.bytes).foldl crcByte 0xFFFFFFFF#32 ∧
    t.block.crcState ^^^ 0xFFFFFFFF#32 = crc32 (l.flatMap Absorbing.bytes) ∧
    t.block.byteCount = BitVec.ofNat 32 (l.flatMap Absorbing.bytes).length

/-- The inference the spec marks as derived at R91 (from R82, R83): split invariance, and the rule's example of "RuSt"
absorbed in three ways. -/
def Obligations.SplitInvariance : Prop :=
  (∀ (l l' : List Absorbing) (s s' : State) (rest rest' : List Event),
    l.flatMap Absorbing.bytes = l'.flatMap Absorbing.bytes →
    ∃ t t', runSequence (absorbSequence l) s rest = .next t ∧ runSequence (absorbSequence l') s' rest' = .next t' ∧
      t.block.crcState = t'.block.crcState ∧ t.block.byteCount = t'.block.byteCount) ∧
  ∀ l ∈ [[Absorbing.feed 3#2 0x52755374#32],
      [.feed 0#2 0x52000000#32, .feed 0#2 0x75000000#32, .feed 0#2 0x53000000#32, .feed 0#2 0x74000000#32],
      [.load 0x52755374#32]],
    ∀ (s : State) (rest : List Event), ∃ t, runSequence (absorbSequence l) s rest = .next t ∧
      t.block.crcState = 0x2B7BF6C3#32 ∧ t.block.byteCount = 4#32

/-- The inference the spec marks as derived at R89 (from R82, R83, R85, R86, R74): the generation sequence leaves the
checksum of the 4 type bytes and the payload in CRC_OUT and OUT_BE, and BYTE_COUNT = 4 + payload length modulo 2^32.
The division of the payload into groups is the model's choice (assumption log 14). -/
def Obligations.GenerationMakesChunkChecksum : Prop :=
  ∀ (code : Word) (payload : List Byte) (s : State) (rest : List Event), ∃ t,
    runSequence (generateSequence code payload) s rest = .next t ∧ t.pending = rest ∧
    t.block.crcOut = crc32 (bytesOf code ++ payload) ∧ t.block.outValid = true ∧
    [t.block.outBe 0, t.block.outBe 1, t.block.outBe 2, t.block.outBe 3] =
      bytesOf (crc32 (bytesOf code ++ payload)) ∧
    t.block.byteCount = BitVec.ofNat 32 (4 + payload.length)

/-- The inference the spec marks as derived at R90 (from R87, R89, R74): after the verification sequence CRC_MATCH = 1
exactly when the expected value is the chunk's checksum; a type code that is not alphabetic does not stop the
checksum, and from a clean record ERR_CODE holds the first failure and MULTI_ERR the fact of the second. The division
of the payload into groups is the model's choice (assumption log 14). -/
def Obligations.VerificationDecidesChunk : Prop :=
  ∀ (code : Word) (payload : List Byte) (c : Word) (s : State) (rest : List Event), ∃ t,
    runSequence (verifySequence code payload c) s rest = .next t ∧ t.pending = rest ∧
    (t.block.crcMatch = true ↔ c = crc32 (bytesOf code ++ payload)) ∧
    (t.block.crcMismatch = true ↔ c ≠ crc32 (bytesOf code ++ payload)) ∧
    (s.block.errCode = .none → s.block.multiErr = false →
      (alpha4 code = true → t.block.multiErr = false ∧
        t.block.errCode = if c = crc32 (bytesOf code ++ payload) then .none else .checksumMismatch) ∧
      (alpha4 code = false → t.block.errCode = .invalidTypeCode ∧
        (t.block.multiErr = true ↔ c ≠ crc32 (bytesOf code ++ payload))))

/-- The inference the spec marks as derived at R94 (from R83, R86, R87): the checksum the generation sequence produces
verifies, by the verification sequence on the same type code and payload. The division of the payload into groups is
the model's choice (assumption log 14). -/
def Obligations.RoundTripVerifies : Prop :=
  ∀ (code : Word) (payload : List Byte) (s : State) (rest : List Event), ∃ t,
    runSequence (generateSequence code payload) s rest = .next t ∧
    ∀ rest' : List Event, ∃ u,
      runSequence (verifySequence code payload t.block.crcOut) t rest' = .next u ∧ u.block.crcMatch = true ∧
      u.block.crcMismatch = false
end

