-- ==== Sys2Proof/Laws/Bytes.lean ====
section
/-! SUPPORT. Words as bytes and back (00_scope.md R9), and the byte count of CRC.FEED (30_encoding.md R59). -/

namespace Sys2Proof.Machine

@[simp] theorem firstBytes_four (w : Word) : firstBytes w 4 = bytesOf w := rfl

theorem length_firstBytes (w : Word) (n1 : BitVec 2) : (firstBytes w (n1.toNat + 1)).length = n1.toNat + 1 := by
  simp [firstBytes, bytesOf]
  omega

/-- The bytes of a word made of four bytes are those bytes, in order. -/
@[simp] theorem bytesOf_wordOfBytes (b0 b1 b2 b3 : Byte) : bytesOf (wordOfBytes b0 b1 b2 b3) = [b0, b1, b2, b3] := by
  simp only [bytesOf, byteOf, wordOfBytes, List.cons.injEq, and_true]
  refine ⟨?_, ?_, ?_, ?_⟩ <;> apply BitVec.eq_of_getLsbD_eq <;> intro i hi <;>
    simp only [BitVec.getLsbD_append, BitVec.getLsbD_extractLsb'] <;> interval_cases i <;> rfl

/-- A word is the word of its four bytes. -/
@[simp] theorem wordOfBytes_byteOf (w : Word) :
    wordOfBytes (byteOf w 0) (byteOf w 1) (byteOf w 2) (byteOf w 3) = w := by
  apply BitVec.eq_of_getLsbD_eq
  intro i hi
  simp only [wordOfBytes, byteOf, BitVec.getLsbD_append, BitVec.getLsbD_extractLsb']
  interval_cases i <;> rfl

/-- N = N1 + 1 as a number. -/
@[simp] theorem feedCount_toNat (n1 : BitVec 2) : (feedCount n1).toNat = n1.toNat + 1 := by
  revert n1
  decide

theorem feedCount_wellFormed (n1 : BitVec 2) : (Instr.crcFeed (feedCount n1)).wellFormed = true := by
  revert n1
  decide

end Sys2Proof.Machine
end

