-- ==== Sys2Proof/Laws/Crc.lean ====
section
/-! SUPPORT. The checksum's algebra: one round of `crcBit` is linear and loses nothing, so the byte update is too;
what feeding the bytes of a word does. -/

namespace Sys2Proof.Machine

@[simp] theorem crcBytes_nil (s : Word) : crcBytes s [] = s := rfl

@[simp] theorem crcBytes_cons (s : Word) (b : Byte) (m : List Byte) :
    crcBytes s (b :: m) = crcBytes (crcByte s b) m := rfl

theorem crcBytes_append (s : Word) (m m' : List Byte) :
    crcBytes s (m ++ m') = crcBytes (crcBytes s m) m' := by
  simp [crcBytes, List.foldl_append]

@[simp] theorem finalValue_finalValue (s : Word) : finalValue (finalValue s) = s := by
  simp [finalValue]

@[simp] theorem crcBits_zero (t : Word) : crcBits 0 t = t := rfl

theorem crcBits_succ (k : Nat) (t : Word) : crcBits (k + 1) t = crcBits k (crcBit t) := rfl

theorem crcBits_add (j k : Nat) (t : Word) : crcBits (j + k) t = crcBits k (crcBits j t) := by
  induction j generalizing t with
  | zero => simp
  | succ j ih => rw [Nat.succ_add, crcBits_succ, ih, crcBits_succ]

/-- A round is linear over xor. -/
theorem crcBit_xor (a b : Word) : crcBit (a ^^^ b) = crcBit a ^^^ crcBit b := by
  unfold crcBit
  rw [BitVec.getLsbD_xor, BitVec.ushiftRight_xor_distrib]
  cases a.getLsbD 0 <;> cases b.getLsbD 0 <;> simp
  · exact BitVec.xor_assoc ..
  · rw [BitVec.xor_assoc, BitVec.xor_assoc, BitVec.xor_comm crcPolyReflected]
  · rw [BitVec.xor_assoc, BitVec.xor_comm (b >>> 1), ← BitVec.xor_assoc crcPolyReflected, BitVec.xor_self,
      BitVec.zero_xor]

theorem crcBits_xor (k : Nat) (a b : Word) : crcBits k (a ^^^ b) = crcBits k a ^^^ crcBits k b := by
  induction k generalizing a b with
  | zero => rfl
  | succ k ih => rw [crcBits_succ, crcBit_xor, ih]; rfl

/-- A round maps only 0 to 0: the generator's top bit is 1, and a shift leaves the top bit 0. -/
theorem eq_zero_of_crcBit_eq_zero {t : Word} (h : crcBit t = 0#32) : t = 0#32 := by
  unfold crcBit at h
  split at h
  · have h31 := congrArg (BitVec.getLsbD · 31) h
    simp [crcPolyReflected] at h31
  · rename_i h0
    have hbit : ∀ i, t.getLsbD (1 + i) = false := fun i => by
      have hi := congrArg (BitVec.getLsbD · i) h
      simpa using hi
    apply BitVec.eq_of_getLsbD_eq
    intro i _
    cases i with
    | zero => simpa using h0
    | succ i => simpa [Nat.add_comm] using hbit i

theorem eq_zero_of_crcBits_eq_zero {k : Nat} {t : Word} (h : crcBits k t = 0#32) : t = 0#32 := by
  induction k generalizing t with
  | zero => exact h
  | succ k ih => exact eq_zero_of_crcBit_eq_zero (ih h)

/-- Any number of rounds loses nothing. -/
theorem crcBits_injective {k : Nat} {a b : Word} (h : crcBits k a = crcBits k b) : a = b := by
  have hz : crcBits k (a ^^^ b) = 0#32 := by rw [crcBits_xor, h, BitVec.xor_self]
  have hx := eq_zero_of_crcBits_eq_zero hz
  have : a ^^^ b ^^^ b = 0#32 ^^^ b := by rw [hx]
  simpa [BitVec.xor_assoc] using this

theorem crcByte_left_injective {s s' : Word} {b : Byte} (h : crcByte s b = crcByte s' b) : s = s' := by
  have hx := crcBits_injective h
  have : s ^^^ b.setWidth 32 ^^^ b.setWidth 32 = s' ^^^ b.setWidth 32 ^^^ b.setWidth 32 := by rw [hx]
  simpa [BitVec.xor_assoc] using this

theorem crcByte_right_injective {s : Word} {b b' : Byte} (h : crcByte s b = crcByte s b') : b = b' := by
  have hx := crcBits_injective h
  have hs : s ^^^ (s ^^^ b.setWidth 32) = s ^^^ (s ^^^ b'.setWidth 32) := by rw [hx]
  have hw : b.setWidth 32 = b'.setWidth 32 := by simpa [← BitVec.xor_assoc] using hs
  have := congrArg (BitVec.setWidth 8) hw
  simpa using this

theorem crcBytes_left_injective {s s' : Word} {m : List Byte} (h : crcBytes s m = crcBytes s' m) : s = s' := by
  induction m generalizing s s' with
  | nil => exact h
  | cons b m ih => exact crcByte_left_injective (ih h)

/-- While the low bits are zero a round is a plain shift. -/
theorem crcBits_of_low_zero {k : Nat} {t : Word} (h : ∀ i < k, t.getLsbD i = false) : crcBits k t = t >>> k := by
  induction k generalizing t with
  | zero => simp
  | succ k ih =>
    have h0 : crcBit t = t >>> 1 := if_neg (by rw [h 0 (Nat.succ_pos k)]; decide)
    rw [crcBits_succ, h0, ih]
    · rw [Nat.add_comm, BitVec.shiftRight_add]
    · intro i hi
      simpa [Nat.add_comm] using h (i + 1) (by omega)

/-- Feeding the low byte of a word and keeping its upper bytes for later is eight rounds on the whole word. -/
theorem crcBits_eight_xor (s c : Word) : crcBits 8 (s ^^^ c) = crcByte s (c.setWidth 8) ^^^ (c >>> 8) := by
  have hlow : ∀ i < 8, (c ^^^ (c.setWidth 8).setWidth 32).getLsbD i = false := by
    intro i hi
    have h32 : i < 32 := by omega
    simp [hi, h32]
  have hshift : (c ^^^ (c.setWidth 8).setWidth 32) >>> 8 = c >>> 8 := by
    apply BitVec.eq_of_getLsbD_eq
    intro i _
    simp [BitVec.getLsbD_setWidth]
  have hsplit : s ^^^ c = (s ^^^ (c.setWidth 8).setWidth 32) ^^^ (c ^^^ (c.setWidth 8).setWidth 32) := by
    rw [BitVec.xor_comm c, BitVec.xor_assoc, ← BitVec.xor_assoc _ _ c, BitVec.xor_self, BitVec.zero_xor]
  rw [hsplit, crcBits_xor, crcBits_of_low_zero hlow, hshift]
  rfl

end Sys2Proof.Machine
end

