-- ==== Sys2Proof/Laws/State.lean ====
section
/-! SUPPORT. One lemma per field per update of the block and of the machine, so that no later proof unfolds a
record update. -/

namespace Sys2Proof.Machine

@[simp] theorem Block.recordError_validSel (b : Block) (code : ErrCode) :
    (b.recordError code).validSel = b.validSel := rfl
@[simp] theorem Block.recordError_irqEn (b : Block) (code : ErrCode) : (b.recordError code).irqEn = b.irqEn := rfl
@[simp] theorem Block.recordError_crcMatch (b : Block) (code : ErrCode) :
    (b.recordError code).crcMatch = b.crcMatch := rfl
@[simp] theorem Block.recordError_crcMismatch (b : Block) (code : ErrCode) :
    (b.recordError code).crcMismatch = b.crcMismatch := rfl
@[simp] theorem Block.recordError_typeOk (b : Block) (code : ErrCode) : (b.recordError code).typeOk = b.typeOk := rfl
@[simp] theorem Block.recordError_errCode (b : Block) (code : ErrCode) :
    (b.recordError code).errCode = if b.errCode = .none then code else b.errCode := rfl
@[simp] theorem Block.recordError_multiErr (b : Block) (code : ErrCode) :
    (b.recordError code).multiErr = if b.errCode = .none then b.multiErr else true := rfl
@[simp] theorem Block.recordError_outValid (b : Block) (code : ErrCode) :
    (b.recordError code).outValid = b.outValid := rfl
@[simp] theorem Block.recordError_data (b : Block) (code : ErrCode) : (b.recordError code).data = b.data := rfl
@[simp] theorem Block.recordError_crcState (b : Block) (code : ErrCode) :
    (b.recordError code).crcState = b.crcState := rfl
@[simp] theorem Block.recordError_crcOut (b : Block) (code : ErrCode) : (b.recordError code).crcOut = b.crcOut := rfl
@[simp] theorem Block.recordError_byteCount (b : Block) (code : ErrCode) :
    (b.recordError code).byteCount = b.byteCount := rfl
@[simp] theorem Block.recordError_typeReg (b : Block) (code : ErrCode) :
    (b.recordError code).typeReg = b.typeReg := rfl

@[simp] theorem Block.clearError_validSel (b : Block) : (b.clearError).validSel = b.validSel := rfl
@[simp] theorem Block.clearError_irqEn (b : Block) : (b.clearError).irqEn = b.irqEn := rfl
@[simp] theorem Block.clearError_crcMatch (b : Block) : (b.clearError).crcMatch = b.crcMatch := rfl
@[simp] theorem Block.clearError_crcMismatch (b : Block) : (b.clearError).crcMismatch = b.crcMismatch := rfl
@[simp] theorem Block.clearError_typeOk (b : Block) : (b.clearError).typeOk = b.typeOk := rfl
@[simp] theorem Block.clearError_errCode (b : Block) : (b.clearError).errCode = .none := rfl
@[simp] theorem Block.clearError_multiErr (b : Block) : (b.clearError).multiErr = false := rfl
@[simp] theorem Block.clearError_outValid (b : Block) : (b.clearError).outValid = b.outValid := rfl
@[simp] theorem Block.clearError_data (b : Block) : (b.clearError).data = b.data := rfl
@[simp] theorem Block.clearError_crcState (b : Block) : (b.clearError).crcState = b.crcState := rfl
@[simp] theorem Block.clearError_crcOut (b : Block) : (b.clearError).crcOut = b.crcOut := rfl
@[simp] theorem Block.clearError_byteCount (b : Block) : (b.clearError).byteCount = b.byteCount := rfl
@[simp] theorem Block.clearError_typeReg (b : Block) : (b.clearError).typeReg = b.typeReg := rfl

@[simp] theorem Block.clearResults_validSel (b : Block) : (b.clearResults).validSel = b.validSel := rfl
@[simp] theorem Block.clearResults_irqEn (b : Block) : (b.clearResults).irqEn = b.irqEn := rfl
@[simp] theorem Block.clearResults_crcMatch (b : Block) : (b.clearResults).crcMatch = false := rfl
@[simp] theorem Block.clearResults_crcMismatch (b : Block) : (b.clearResults).crcMismatch = false := rfl
@[simp] theorem Block.clearResults_typeOk (b : Block) : (b.clearResults).typeOk = b.typeOk := rfl
@[simp] theorem Block.clearResults_errCode (b : Block) : (b.clearResults).errCode = b.errCode := rfl
@[simp] theorem Block.clearResults_multiErr (b : Block) : (b.clearResults).multiErr = b.multiErr := rfl
@[simp] theorem Block.clearResults_outValid (b : Block) : (b.clearResults).outValid = false := rfl
@[simp] theorem Block.clearResults_data (b : Block) : (b.clearResults).data = b.data := rfl
@[simp] theorem Block.clearResults_crcState (b : Block) : (b.clearResults).crcState = b.crcState := rfl
@[simp] theorem Block.clearResults_crcOut (b : Block) : (b.clearResults).crcOut = b.crcOut := rfl
@[simp] theorem Block.clearResults_byteCount (b : Block) : (b.clearResults).byteCount = b.byteCount := rfl
@[simp] theorem Block.clearResults_typeReg (b : Block) : (b.clearResults).typeReg = b.typeReg := rfl

@[simp] theorem Block.absorb_validSel (b : Block) (w : Word) (n : Nat) : (b.absorb w n).validSel = b.validSel := rfl
@[simp] theorem Block.absorb_irqEn (b : Block) (w : Word) (n : Nat) : (b.absorb w n).irqEn = b.irqEn := rfl
@[simp] theorem Block.absorb_crcMatch (b : Block) (w : Word) (n : Nat) : (b.absorb w n).crcMatch = false := rfl
@[simp] theorem Block.absorb_crcMismatch (b : Block) (w : Word) (n : Nat) : (b.absorb w n).crcMismatch = false := rfl
@[simp] theorem Block.absorb_typeOk (b : Block) (w : Word) (n : Nat) : (b.absorb w n).typeOk = b.typeOk := rfl
@[simp] theorem Block.absorb_errCode (b : Block) (w : Word) (n : Nat) : (b.absorb w n).errCode = b.errCode := rfl
@[simp] theorem Block.absorb_multiErr (b : Block) (w : Word) (n : Nat) : (b.absorb w n).multiErr = b.multiErr := rfl
@[simp] theorem Block.absorb_outValid (b : Block) (w : Word) (n : Nat) : (b.absorb w n).outValid = false := rfl
@[simp] theorem Block.absorb_data (b : Block) (w : Word) (n : Nat) : (b.absorb w n).data = b.data := rfl
@[simp] theorem Block.absorb_crcState (b : Block) (w : Word) (n : Nat) :
    (b.absorb w n).crcState = crcBytes b.crcState (firstBytes w n) := rfl
@[simp] theorem Block.absorb_crcOut (b : Block) (w : Word) (n : Nat) : (b.absorb w n).crcOut = b.crcOut := rfl
@[simp] theorem Block.absorb_byteCount (b : Block) (w : Word) (n : Nat) :
    (b.absorb w n).byteCount = b.byteCount + BitVec.ofNat 32 n := rfl
@[simp] theorem Block.absorb_typeReg (b : Block) (w : Word) (n : Nat) : (b.absorb w n).typeReg = b.typeReg := rfl

@[simp] theorem Block.startMessage_validSel (b : Block) : (b.startMessage).validSel = b.validSel := rfl
@[simp] theorem Block.startMessage_irqEn (b : Block) : (b.startMessage).irqEn = b.irqEn := rfl
@[simp] theorem Block.startMessage_crcMatch (b : Block) : (b.startMessage).crcMatch = false := rfl
@[simp] theorem Block.startMessage_crcMismatch (b : Block) : (b.startMessage).crcMismatch = false := rfl
@[simp] theorem Block.startMessage_typeOk (b : Block) : (b.startMessage).typeOk = b.typeOk := rfl
@[simp] theorem Block.startMessage_errCode (b : Block) : (b.startMessage).errCode = b.errCode := rfl
@[simp] theorem Block.startMessage_multiErr (b : Block) : (b.startMessage).multiErr = b.multiErr := rfl
@[simp] theorem Block.startMessage_outValid (b : Block) : (b.startMessage).outValid = false := rfl
@[simp] theorem Block.startMessage_data (b : Block) : (b.startMessage).data = b.data := rfl
@[simp] theorem Block.startMessage_crcState (b : Block) : (b.startMessage).crcState = crcInitValue := rfl
@[simp] theorem Block.startMessage_crcOut (b : Block) : (b.startMessage).crcOut = b.crcOut := rfl
@[simp] theorem Block.startMessage_byteCount (b : Block) : (b.startMessage).byteCount = 0#32 := rfl
@[simp] theorem Block.startMessage_typeReg (b : Block) : (b.startMessage).typeReg = b.typeReg := rfl

@[simp] theorem Block.produce_validSel (b : Block) : (b.produce).validSel = b.validSel := rfl
@[simp] theorem Block.produce_irqEn (b : Block) : (b.produce).irqEn = b.irqEn := rfl
@[simp] theorem Block.produce_crcMatch (b : Block) : (b.produce).crcMatch = b.crcMatch := rfl
@[simp] theorem Block.produce_crcMismatch (b : Block) : (b.produce).crcMismatch = b.crcMismatch := rfl
@[simp] theorem Block.produce_typeOk (b : Block) : (b.produce).typeOk = b.typeOk := rfl
@[simp] theorem Block.produce_errCode (b : Block) : (b.produce).errCode = b.errCode := rfl
@[simp] theorem Block.produce_multiErr (b : Block) : (b.produce).multiErr = b.multiErr := rfl
@[simp] theorem Block.produce_outValid (b : Block) : (b.produce).outValid = true := rfl
@[simp] theorem Block.produce_data (b : Block) : (b.produce).data = b.data := rfl
@[simp] theorem Block.produce_crcState (b : Block) : (b.produce).crcState = b.crcState := rfl
@[simp] theorem Block.produce_crcOut (b : Block) : (b.produce).crcOut = finalValue b.crcState := rfl
@[simp] theorem Block.produce_byteCount (b : Block) : (b.produce).byteCount = b.byteCount := rfl
@[simp] theorem Block.produce_typeReg (b : Block) : (b.produce).typeReg = b.typeReg := rfl

@[simp] theorem Block.setVerdict_validSel (b : Block) (equal : Bool) :
    (b.setVerdict equal).validSel = b.validSel := rfl
@[simp] theorem Block.setVerdict_irqEn (b : Block) (equal : Bool) : (b.setVerdict equal).irqEn = b.irqEn := rfl
@[simp] theorem Block.setVerdict_crcMatch (b : Block) (equal : Bool) : (b.setVerdict equal).crcMatch = equal := rfl
@[simp] theorem Block.setVerdict_crcMismatch (b : Block) (equal : Bool) :
    (b.setVerdict equal).crcMismatch = !equal := rfl
@[simp] theorem Block.setVerdict_typeOk (b : Block) (equal : Bool) : (b.setVerdict equal).typeOk = b.typeOk := rfl
@[simp] theorem Block.setVerdict_errCode (b : Block) (equal : Bool) : (b.setVerdict equal).errCode = b.errCode := rfl
@[simp] theorem Block.setVerdict_multiErr (b : Block) (equal : Bool) :
    (b.setVerdict equal).multiErr = b.multiErr := rfl
@[simp] theorem Block.setVerdict_outValid (b : Block) (equal : Bool) :
    (b.setVerdict equal).outValid = b.outValid := rfl
@[simp] theorem Block.setVerdict_data (b : Block) (equal : Bool) : (b.setVerdict equal).data = b.data := rfl
@[simp] theorem Block.setVerdict_crcState (b : Block) (equal : Bool) :
    (b.setVerdict equal).crcState = b.crcState := rfl
@[simp] theorem Block.setVerdict_crcOut (b : Block) (equal : Bool) : (b.setVerdict equal).crcOut = b.crcOut := rfl
@[simp] theorem Block.setVerdict_byteCount (b : Block) (equal : Bool) :
    (b.setVerdict equal).byteCount = b.byteCount := rfl
@[simp] theorem Block.setVerdict_typeReg (b : Block) (equal : Bool) : (b.setVerdict equal).typeReg = b.typeReg := rfl

@[simp] theorem Block.setType_validSel (b : Block) (ok : Bool) : (b.setType ok).validSel = b.validSel := rfl
@[simp] theorem Block.setType_irqEn (b : Block) (ok : Bool) : (b.setType ok).irqEn = b.irqEn := rfl
@[simp] theorem Block.setType_crcMatch (b : Block) (ok : Bool) : (b.setType ok).crcMatch = b.crcMatch := rfl
@[simp] theorem Block.setType_crcMismatch (b : Block) (ok : Bool) : (b.setType ok).crcMismatch = b.crcMismatch := rfl
@[simp] theorem Block.setType_typeOk (b : Block) (ok : Bool) : (b.setType ok).typeOk = ok := rfl
@[simp] theorem Block.setType_errCode (b : Block) (ok : Bool) : (b.setType ok).errCode = b.errCode := rfl
@[simp] theorem Block.setType_multiErr (b : Block) (ok : Bool) : (b.setType ok).multiErr = b.multiErr := rfl
@[simp] theorem Block.setType_outValid (b : Block) (ok : Bool) : (b.setType ok).outValid = b.outValid := rfl
@[simp] theorem Block.setType_data (b : Block) (ok : Bool) : (b.setType ok).data = b.data := rfl
@[simp] theorem Block.setType_crcState (b : Block) (ok : Bool) : (b.setType ok).crcState = b.crcState := rfl
@[simp] theorem Block.setType_crcOut (b : Block) (ok : Bool) : (b.setType ok).crcOut = b.crcOut := rfl
@[simp] theorem Block.setType_byteCount (b : Block) (ok : Bool) : (b.setType ok).byteCount = b.byteCount := rfl
@[simp] theorem Block.setType_typeReg (b : Block) (ok : Bool) : (b.setType ok).typeReg = b.data := rfl

@[simp] theorem Block.writeCtrl_validSel (b : Block) (v : Word) : (b.writeCtrl v).validSel = v.getLsbD 0 := rfl
@[simp] theorem Block.writeCtrl_irqEn (b : Block) (v : Word) : (b.writeCtrl v).irqEn = v.getLsbD 1 := rfl
@[simp] theorem Block.writeCtrl_crcMatch (b : Block) (v : Word) : (b.writeCtrl v).crcMatch = b.crcMatch := rfl
@[simp] theorem Block.writeCtrl_crcMismatch (b : Block) (v : Word) :
    (b.writeCtrl v).crcMismatch = b.crcMismatch := rfl
@[simp] theorem Block.writeCtrl_typeOk (b : Block) (v : Word) : (b.writeCtrl v).typeOk = b.typeOk := rfl
@[simp] theorem Block.writeCtrl_errCode (b : Block) (v : Word) : (b.writeCtrl v).errCode = b.errCode := rfl
@[simp] theorem Block.writeCtrl_multiErr (b : Block) (v : Word) : (b.writeCtrl v).multiErr = b.multiErr := rfl
@[simp] theorem Block.writeCtrl_outValid (b : Block) (v : Word) : (b.writeCtrl v).outValid = b.outValid := rfl
@[simp] theorem Block.writeCtrl_data (b : Block) (v : Word) : (b.writeCtrl v).data = b.data := rfl
@[simp] theorem Block.writeCtrl_crcState (b : Block) (v : Word) : (b.writeCtrl v).crcState = b.crcState := rfl
@[simp] theorem Block.writeCtrl_crcOut (b : Block) (v : Word) : (b.writeCtrl v).crcOut = b.crcOut := rfl
@[simp] theorem Block.writeCtrl_byteCount (b : Block) (v : Word) : (b.writeCtrl v).byteCount = b.byteCount := rfl
@[simp] theorem Block.writeCtrl_typeReg (b : Block) (v : Word) : (b.writeCtrl v).typeReg = b.typeReg := rfl

@[simp] theorem Block.writeData_validSel (b : Block) (v : Word) : (b.writeData v).validSel = b.validSel := rfl
@[simp] theorem Block.writeData_irqEn (b : Block) (v : Word) : (b.writeData v).irqEn = b.irqEn := rfl
@[simp] theorem Block.writeData_crcMatch (b : Block) (v : Word) : (b.writeData v).crcMatch = b.crcMatch := rfl
@[simp] theorem Block.writeData_crcMismatch (b : Block) (v : Word) :
    (b.writeData v).crcMismatch = b.crcMismatch := rfl
@[simp] theorem Block.writeData_typeOk (b : Block) (v : Word) : (b.writeData v).typeOk = b.typeOk := rfl
@[simp] theorem Block.writeData_errCode (b : Block) (v : Word) : (b.writeData v).errCode = b.errCode := rfl
@[simp] theorem Block.writeData_multiErr (b : Block) (v : Word) : (b.writeData v).multiErr = b.multiErr := rfl
@[simp] theorem Block.writeData_outValid (b : Block) (v : Word) : (b.writeData v).outValid = b.outValid := rfl
@[simp] theorem Block.writeData_data (b : Block) (v : Word) : (b.writeData v).data = v := rfl
@[simp] theorem Block.writeData_crcState (b : Block) (v : Word) : (b.writeData v).crcState = b.crcState := rfl
@[simp] theorem Block.writeData_crcOut (b : Block) (v : Word) : (b.writeData v).crcOut = b.crcOut := rfl
@[simp] theorem Block.writeData_byteCount (b : Block) (v : Word) : (b.writeData v).byteCount = b.byteCount := rfl
@[simp] theorem Block.writeData_typeReg (b : Block) (v : Word) : (b.writeData v).typeReg = b.typeReg := rfl

@[simp] theorem State.withBlock_block (s : State) (b : Block) : (s.withBlock b).block = b := rfl
@[simp] theorem State.withBlock_pending (s : State) (b : Block) : (s.withBlock b).pending = s.pending := rfl
@[simp] theorem State.withBlock_completed (s : State) (b : Block) : (s.withBlock b).completed = s.completed := rfl

@[simp] theorem State.respond_block (s : State) (r : Request) (a : Response) :
    (s.respond r a).block = s.block := rfl
@[simp] theorem State.respond_pending (s : State) (r : Request) (a : Response) :
    (s.respond r a).pending = s.pending := rfl
@[simp] theorem State.respond_completed (s : State) (r : Request) (a : Response) :
    (s.respond r a).completed = s.completed ++ [⟨r, a⟩] := rfl

/-- Replacing the block by itself changes nothing. -/
@[simp] theorem State.withBlock_self (s : State) : s.withBlock s.block = s := rfl

end Sys2Proof.Machine
end

