-- ==== Sys2Proof/Laws/Ops.lean ====
section
/-! SUPPORT. One lemma per shared operation, saying everything it can do: later proofs cite these and do not unfold
the operation. -/

namespace Sys2Proof.Machine

/-! ### The command meanings as one function of the block -/

/-- What a command makes of the block. Each meaning answers the next state with this block (`exec_eq`). -/
def effectOf (i : Instr) (b : Block) : Block :=
  match i with
  | .nop => b
  | .crcInit => b.startMessage
  | .crcFeed n => b.absorb b.data n.toNat
  | .crcFinal => b.produce
  | .crcVerify =>
    if finalValue b.crcState = b.data then b.produce.setVerdict true
    else (b.produce.setVerdict false).recordError .checksumMismatch
  | .typeLoad a => b.loadType a
  | .typeText len a => if len = 4#4 then b.loadType a else (b.setType false).recordError .invalidLength
  | .errClr => b.clearError

/-- Every command answers a next state, which differs in the block alone. -/
theorem exec_eq (i : Instr) (s : State) : exec i s = .next (s.withBlock (effectOf i s.block)) := by
  cases i with
  | crcVerify =>
    show (if finalValue s.block.crcState = s.block.data then _ else _ : Host.Outcome State Fault Refusal) = _
    by_cases h : finalValue s.block.crcState = s.block.data <;> simp [effectOf, h]
  | typeText len a =>
    show (if len = 4#4 then _ else _ : Host.Outcome State Fault Refusal) = _
    by_cases h : len = 4#4 <;> simp [effectOf, h]
  | _ => rfl

/-- The inversion of `exec`. -/
theorem exec_next_iff {i : Instr} {s t : State} :
    exec i s = .next t ↔ t = s.withBlock (effectOf i s.block) := by
  rw [exec_eq]
  exact ⟨fun h => by injection h with h; exact h.symm, fun h => by rw [h]⟩

/-! ### Recording an error -/

theorem Block.recordError_of_none {b : Block} {code : ErrCode} (h : b.errCode = .none) :
    b.recordError code = { b with errCode := code } := by
  simp [Block.recordError, h]

theorem Block.recordError_of_error {b : Block} {code : ErrCode} (h : b.errCode ≠ .none) :
    b.recordError code = { b with multiErr := true } := by
  simp [Block.recordError, h]

@[simp] theorem Block.err_eq (b : Block) : b.err = decide (b.errCode ≠ .none) := by
  unfold Block.err
  cases b.errCode <;> decide

/-! ### STATUS from its fields -/

/-- The STATUS word as a function of the stored fields alone, each of a small type: a fact about its bits is a
finite check over them. -/
def statusOf (crcMatch crcMismatch typeOk : Bool) (code : ErrCode) (multiErr outValid : Bool) : Word :=
  0#22 ++ BitVec.ofBool outValid ++ BitVec.ofBool multiErr ++ code.bits ++ BitVec.ofBool (code.bits != 0#4) ++
    BitVec.ofBool typeOk ++ BitVec.ofBool crcMismatch ++ BitVec.ofBool crcMatch

theorem Block.statusWord_eq (b : Block) :
    b.statusWord = statusOf b.crcMatch b.crcMismatch b.typeOk b.errCode b.multiErr b.outValid := rfl

/-! ### Loading a type code -/

/-- `loadType` field by field: TYPE, TYPE_OK, the absorb when `a` is set, and the error when a byte is no letter. -/
theorem Block.loadType_eq (b : Block) (a : Bool) :
    b.loadType a = { b with
      typeReg := b.data
      typeOk := alpha4 b.data
      crcState := if a then crcBytes b.crcState (bytesOf b.data) else b.crcState
      byteCount := if a then b.byteCount + 4#32 else b.byteCount
      outValid := !a && b.outValid
      crcMatch := !a && b.crcMatch
      crcMismatch := !a && b.crcMismatch
      errCode := if alpha4 b.data = false ∧ b.errCode = .none then .invalidTypeCode else b.errCode
      multiErr := if alpha4 b.data = false ∧ b.errCode ≠ .none then true else b.multiErr } := by
  cases a <;> cases h : alpha4 b.data <;> by_cases he : b.errCode = .none <;>
    simp [Block.loadType, h, he, Block.recordError, Block.absorb, Block.setType, Block.clearResults]

/-! ### The window -/

/-- The register map is the list of the registers' offsets: an offset holds `reg` exactly when it is its offset. -/
theorem Reg.at?_eq_some_iff (a : Offset) (reg : Reg) : Reg.at? a = some reg ↔ a = reg.offset := by
  revert a reg
  have h : ∀ (a : Offset), ∀ reg ∈ [Reg.id, .ctrl, .status, .data, .cmd, .crcState, .crcOut, .byteCount, .typeCode,
      .typeFlags], (Reg.at? a = some reg ↔ a = reg.offset) := by decide +kernel
  intro a reg
  exact h a reg (by cases reg <;> simp)

theorem Reg.at?_isSome (a : Offset) : (Reg.at? a).isSome = decide (a.toNat % 4 = 0 ∧ a.toNat ≤ 0x24) := by
  revert a
  decide +kernel

theorem Block.readWord?_isSome (b : Block) (a : Offset) :
    (b.readWord? a).isSome = decide (a.toNat % 4 = 0 ∧ a.toNat ≤ 0x24) := by
  rw [← Reg.at?_isSome]
  simp [Block.readWord?]

theorem Block.readByte?_isSome (b : Block) (a : Offset) :
    (b.readByte? a).isSome = decide (0x28 ≤ a.toNat ∧ a.toNat ≤ 0x2B) := by
  have h : (b.readByte? a).isSome = decide (a = 0x28#6 ∨ a = 0x29#6 ∨ a = 0x2A#6 ∨ a = 0x2B#6) := by
    unfold Block.readByte?
    split_ifs <;> simp_all
  rw [h]
  clear h
  revert a
  decide +kernel

@[simp] theorem Block.readWord?_offset (b : Block) (reg : Reg) : b.readWord? reg.offset = some (b.readReg reg) := by
  simp [Block.readWord?, (Reg.at?_eq_some_iff _ reg).2 rfl]

end Sys2Proof.Machine
end

