-- ==== Sys2Proof/Laws/PerInstr.lean ====
section
/-! SUPPORT. The family RowPattern: the word of a command carries its row's fixed bits, and every bit the format
reserves is 0 (30_encoding.md R56, R57). -/

/-- The encoded word of a well-formed command is accepted by the command's row, its row is in the table, and bits
31:16 are zero (30_encoding.md R56, R57). -/
def Sys2Proof.Laws.RowPattern.Statement (i : Sys2Proof.Instr) : Prop :=
  i.wellFormed = true →
    i.row.accepts (Sys2Proof.encode i) = true ∧ i.row ∈ Sys2Proof.opcodeRows ∧
    (Sys2Proof.encode i).extractLsb' 16 16 = 0#16

theorem Sys2Proof.Laws.RowPattern.nop : Sys2Proof.Laws.RowPattern.Statement .nop := fun _ => by decide

theorem Sys2Proof.Laws.RowPattern.crcInit : Sys2Proof.Laws.RowPattern.Statement .crcInit := fun _ => by decide

theorem Sys2Proof.Laws.RowPattern.crcFeed (n : BitVec 3) : Sys2Proof.Laws.RowPattern.Statement (.crcFeed n) := by
  unfold Sys2Proof.Laws.RowPattern.Statement
  revert n
  decide

theorem Sys2Proof.Laws.RowPattern.crcFinal : Sys2Proof.Laws.RowPattern.Statement .crcFinal := fun _ => by decide

theorem Sys2Proof.Laws.RowPattern.crcVerify : Sys2Proof.Laws.RowPattern.Statement .crcVerify := fun _ => by decide

theorem Sys2Proof.Laws.RowPattern.typeLoad (a : Bool) : Sys2Proof.Laws.RowPattern.Statement (.typeLoad a) := by
  unfold Sys2Proof.Laws.RowPattern.Statement
  revert a
  decide

theorem Sys2Proof.Laws.RowPattern.typeText (len : BitVec 4) (a : Bool) :
    Sys2Proof.Laws.RowPattern.Statement (.typeText len a) := by
  unfold Sys2Proof.Laws.RowPattern.Statement
  revert len a
  decide

theorem Sys2Proof.Laws.RowPattern.errClr : Sys2Proof.Laws.RowPattern.Statement .errClr := fun _ => by decide
end

