-- ==== Sys2Proof/Laws/Step.lean ====
section
/-! SUPPORT. What a command write, an access, an event and a step can do, each said once. -/

namespace Sys2Proof.Machine

/-- What writing a word to CMD makes of the block (30_encoding.md R58). -/
def effectOfWord (w : Word) (b : Block) : Block :=
  match decode w with
  | .command i => effectOf i b
  | .illegal _ => b.recordError .illegalCmd

theorem performCommand_eq (w : Word) (s : State) :
    performCommand w s = .next (s.withBlock (effectOfWord w s.block)) := by
  unfold performCommand effectOfWord
  cases decode w with
  | command i => exact exec_eq i s
  | illegal _ => rfl

/-- What an access makes of the block: only the three admitted writes change it. -/
def blockAfter (r : Request) (b : Block) : Block :=
  match r.dir, r.size with
  | .write v, .word =>
    if r.addr = Reg.ctrl.offset then b.writeCtrl v
    else if r.addr = Reg.data.offset then b.writeData v
    else if r.addr = Reg.cmd.offset then effectOfWord v b
    else b
  | .write _, .half => b
  | .write _, .byte => b
  | .read, _ => b

/-- What an access is answered. -/
def answerOf (r : Request) (b : Block) : Response :=
  match r.dir, r.size with
  | .read, .word => ((b.readWord? r.addr).map .word).getD (.busError r.addr)
  | .read, .byte => ((b.readByte? r.addr).map .byte).getD (.busError r.addr)
  | .read, .half => .busError r.addr
  | .write _, .word =>
    if r.addr = Reg.ctrl.offset ∨ r.addr = Reg.data.offset ∨ r.addr = Reg.cmd.offset then .okay
    else .busError r.addr
  | .write _, .byte => .busError r.addr
  | .write _, .half => .busError r.addr

/-- Every access answers a next state: the block it leaves and the response logged. -/
theorem performAccess_eq (r : Request) (s : State) :
    performAccess r s = .next ((s.withBlock (blockAfter r s.block)).respond r (answerOf r s.block)) := by
  obtain ⟨a, size, dir⟩ := r
  cases dir <;> cases size
  case read.word =>
    simp only [performAccess, readWordAccess, blockAfter, answerOf]
    cases s.block.readWord? a <;> rfl
  case read.byte =>
    simp only [performAccess, readByteAccess, blockAfter, answerOf]
    cases s.block.readByte? a <;> rfl
  case write.word v =>
    simp only [performAccess, writeWordAccess, blockAfter, answerOf, performCommand_eq]
    by_cases h1 : a = Reg.ctrl.offset
    · rw [if_pos h1, if_pos h1, if_pos (.inl h1)]
      rfl
    · rw [if_neg h1, if_neg h1]
      by_cases h2 : a = Reg.data.offset
      · rw [if_pos h2, if_pos h2, if_pos (.inr (.inl h2))]
        rfl
      · rw [if_neg h2, if_neg h2]
        by_cases h3 : a = Reg.cmd.offset
        · rw [if_pos h3, if_pos h3, if_pos (.inr (.inr h3))]
          rfl
        · rw [if_neg h3, if_neg h3, if_neg (by simp [h1, h2, h3])]
          rfl
  all_goals rfl

@[simp] theorem blockAfter_commandWrite (w : Word) (b : Block) :
    blockAfter (commandWrite w) b = effectOfWord w b := rfl

@[simp] theorem blockAfter_dataWrite (v : Word) (b : Block) : blockAfter (dataWrite v) b = b.writeData v := rfl

@[simp] theorem blockAfter_ctrlWrite (v : Word) (b : Block) : blockAfter (ctrlWrite v) b = b.writeCtrl v := rfl

/-- What an event makes of the block, for every event the model does not refuse. -/
def blockAfterEvent (e : Event) (b : Block) : Block :=
  match e with
  | .access r => blockAfter r b
  | .reset => Block.reset
  | .resetOverlapping _ => b

/-- A step with nothing pending. -/
theorem step_idle (s : State) (h : s.pending = []) : step s = .next s := by
  unfold step deliverNext
  rw [h]

/-- A step with an event pending performs it on the state that no longer holds it. -/
theorem step_cons (s : State) (e : Event) (rest : List Event) :
    step { s with pending := e :: rest } = performEvent e { s with pending := rest } := rfl

/-- A step with an access pending. -/
theorem step_access (s : State) (r : Request) (rest : List Event) :
    step { s with pending := .access r :: rest } =
      .next { block := blockAfter r s.block
              pending := rest
              completed := s.completed ++ [⟨r, answerOf r s.block⟩] } :=
  performAccess_eq r { s with pending := rest }

/-- The inversion of a step that delivers an event: the event is not an overlapping reset, it is taken off the
list, and the block is what the event makes of it. -/
theorem step_cons_next {s t : State} {e : Event} {rest : List Event}
    (h : step { s with pending := e :: rest } = .next t) :
    (∀ r, e ≠ .resetOverlapping r) ∧ t.pending = rest ∧ t.block = blockAfterEvent e s.block := by
  rw [step_cons] at h
  cases e with
  | access r =>
    simp only [performEvent, performAccess_eq] at h
    injection h with h
    subst h
    exact ⟨fun _ => by simp, rfl, rfl⟩
  | reset =>
    injection h with h
    subst h
    exact ⟨fun _ => by simp, rfl, rfl⟩
  | resetOverlapping r => cases h

/-- The inversion of any step. -/
theorem step_next_cases {s t : State} (h : step s = .next t) :
    t = s ∨ ∃ e rest, s.pending = e :: rest ∧ t.pending = rest ∧ t.block = blockAfterEvent e s.block := by
  rcases hp : s.pending with _ | ⟨e, rest⟩
  · rw [step_idle s hp] at h
    injection h with h
    exact .inl h.symm
  · have hs : s = { s with pending := e :: rest } := by rw [← hp]
    rw [hs] at h
    exact .inr ⟨e, rest, rfl, (step_cons_next h).2⟩

/-! ### Runs of a host sequence -/

@[simp] theorem run_zero (s : State) : run 0 s = .next s := rfl

/-- A run that goes on after its first step. -/
theorem run_succ_of_next {s t : State} (h : step s = .next t) (k : Nat) : run (k + 1) s = run k t := by
  have hs : core.step s = .next t := h
  simp only [run, Host.Core.run, hs]
  rfl

/-- What a list of accesses makes of the block. -/
def blockAfterAll (l : List Request) (b : Block) : Block := l.foldl (fun b r => blockAfter r b) b

@[simp] theorem blockAfterAll_nil (b : Block) : blockAfterAll [] b = b := rfl

@[simp] theorem blockAfterAll_cons (r : Request) (l : List Request) (b : Block) :
    blockAfterAll (r :: l) b = blockAfterAll l (blockAfter r b) := rfl

@[simp] theorem blockAfterAll_append (l l' : List Request) (b : Block) :
    blockAfterAll (l ++ l') b = blockAfterAll l' (blockAfterAll l b) := by
  simp [blockAfterAll]

/-- How a list of accesses is answered. -/
def answersOfAll : List Request → Block → List Completed
  | [], _ => []
  | r :: l, b => ⟨r, answerOf r b⟩ :: answersOfAll l (blockAfter r b)

/-- A run that delivers a list of accesses ends in a next state: the rest pending, the accesses answered in order,
and the block what they make of it, one after the other. -/
theorem run_accesses (l : List Request) (s : State) (rest : List Event) :
    run l.length { s with pending := l.map .access ++ rest } =
      .next { block := blockAfterAll l s.block
              pending := rest
              completed := s.completed ++ answersOfAll l s.block } := by
  induction l generalizing s with
  | nil => simp [answersOfAll]
  | cons r l ih =>
    rw [List.length_cons, List.map_cons, List.cons_append,
      run_succ_of_next (step_access s r (List.map Event.access l ++ rest))]
    have h := ih ⟨blockAfter r s.block, [], s.completed ++ [⟨r, answerOf r s.block⟩]⟩
    simpa [answersOfAll] using h

/-- The run of a statement sequence, through the accesses it expands to. -/
theorem runSequence_eq (l : List Stmt) (s : State) (rest : List Event) :
    runSequence l s rest =
      .next { block := blockAfterAll (l.flatMap Stmt.expand) s.block
              pending := rest
              completed := s.completed ++ answersOfAll (l.flatMap Stmt.expand) s.block } := by
  unfold runSequence eventsOf
  rw [List.length_map]
  exact run_accesses _ s rest

end Sys2Proof.Machine
end

