-- ==== Sys2Proof/Tests/Slice0.lean ====
section
/-! SUPPORT. Small tests, their expected values taken from 95_test_vectors.md and the rules' examples, and for every
obligation with hypotheses a concrete case that meets them (`witness_<obligation>`). -/

namespace Sys2Proof.Tests
open Sys2Proof Sys2Proof.Machine

/-! ### Helpers -/

/-- The block after reset with another DATA. -/
def withData (v : Word) : Block := { Block.reset with data := v }

/-- The machine after reset with another block. -/
def machine (b : Block) : State := { State.reset with block := b }

/-- The block a command leaves, if it completes. -/
def after (i : Instr) (b : Block) : Option Block :=
  match exec i (machine b) with
  | .next t => some t.block
  | .fault _ => none
  | .refused _ => none

/-- The response to one access from the given block, through one step. -/
def answer (r : Request) (b : Block) : Option Response :=
  match step { machine b with pending := [.access r] } with
  | .next t => t.completed.head?.map Completed.response
  | .fault _ => none
  | .refused _ => none

/-- The block one event leaves, through one step. -/
def afterEvent (e : Event) (b : Block) : Option Block :=
  match step { machine b with pending := [e] } with
  | .next t => some t.block
  | .fault _ => none
  | .refused _ => none

/-- The end of program P1 (95_test_vectors.md): the reference chunk's checksum produced. -/
def endOfP1 : Block :=
  { Block.reset with
    typeOk := true, outValid := true, data := 0x65210000#32, crcState := 0x542E27B1#32, crcOut := 0xABD1D84E#32,
    byteCount := 0x2E#32, typeReg := 0x52755374#32 }

/-! ### Well-formedness: an ill-formed term for each check -/

/-- R59: "a count of 0 cannot be encoded". -/
theorem test_wf_refuses_count_zero : (Instr.crcFeed 0#3).wellFormed = false := by decide
/-- R59: N1 + 1 is at most 4. -/
theorem test_wf_refuses_count_five : (Instr.crcFeed 5#3).wellFormed = false := by decide
/-- R59: 1 to 4 are legal. -/
theorem test_wf_accepts_counts : (Instr.crcFeed 1#3).wellFormed = true ∧ (Instr.crcFeed 4#3).wellFormed = true := by
  decide
/-- R66: `WR` takes CTRL, DATA, CMD. -/
theorem test_stmt_wf_refuses_read_only : (Stmt.wr .status (.hex 0#32)).wellFormed = false := by decide
/-- R66: k in 0..3. -/
theorem test_stmt_wf_refuses_out_be_four : (Stmt.rdb 4).wellFormed = false := by decide
/-- R66: n in 1..4. -/
theorem test_stmt_wf_refuses_feed_five : (Stmt.feedb 5#3 (.hex 0#32)).wellFormed = false := by decide
/-- R66: a string has at most four characters. -/
theorem test_stmt_wf_refuses_long_text :
    (Stmt.expect (.text [0x61#8, 0x61#8, 0x61#8, 0x61#8, 0x61#8])).wellFormed = false := by decide

/-! ### Decoding, words written out from the table of R57 -/

theorem test_decode_nop : decode 0b00000000000000000000000000000000#32 = .command .nop := by decide
theorem test_decode_crc_init : decode 0b00000000000000000000000000000001#32 = .command .crcInit := by decide
theorem test_decode_crc_feed_2 : decode 0b00000000000000000000000100000010#32 = .command (.crcFeed 2#3) := by decide
theorem test_decode_crc_feed_4 : decode 0b00000000000000000000001100000010#32 = .command (.crcFeed 4#3) := by decide
theorem test_decode_crc_final : decode 0b00000000000000000000000000000011#32 = .command .crcFinal := by decide
theorem test_decode_crc_verify : decode 0b00000000000000000000000000000100#32 = .command .crcVerify := by decide
theorem test_decode_type_load : decode 0b00000000000000000000000000010000#32 = .command (.typeLoad false) := by decide
theorem test_decode_type_load_absorb :
    decode 0b00000000000000000000000100010000#32 = .command (.typeLoad true) := by decide
theorem test_decode_type_text :
    decode 0b00000000000000001010000000010001#32 = .command (.typeText 10#4 false) := by decide
theorem test_decode_type_text_absorb :
    decode 0b00000000000000001111000100010001#32 = .command (.typeText 15#4 true) := by decide
theorem test_decode_err_clr : decode 0b00000000000000000000000000100000#32 = .command .errClr := by decide
/-- L2-D: a reserved bit of each kind. -/
theorem test_decode_reserved_bits :
    decode 0x00000402#32 = .illegal .reservedBit ∧ decode 0x80000004#32 = .illegal .reservedBit ∧
    decode 0x00000210#32 = .illegal .reservedBit ∧ decode 0x00004811#32 = .illegal .reservedBit ∧
    decode 0x00000120#32 = .illegal .reservedBit := by decide
/-- L2-D: unassigned opcodes. -/
theorem test_decode_unassigned :
    decode 0x0000000F#32 = .illegal (.unassignedOpcode 0x0F#8) ∧
    decode 0xFFFFFFFF#32 = .illegal (.unassignedOpcode 0xFF#8) := by decide
/-- The opcode table's row of TYPE.TEXT, LEN = 4. -/
theorem test_decode_table_word :
    decodeTableWord 32 0x4011 = some (.typeText 4#4 false) ∧ decodeTableWord 32 0x5 = none := by decide

/-! ### Commands -/

/-- L2-X1. -/
theorem test_nop : after .nop endOfP1 = some endOfP1 := by decide
/-- R84: CRC_OUT, TYPE and TYPE_OK are kept. -/
theorem test_crc_init : after .crcInit endOfP1 =
    some { endOfP1 with crcState := 0xFFFFFFFF#32, byteCount := 0#32, outValid := false } := by decide
/-- L2-C6: bytes beyond N are ignored. -/
theorem test_crc_feed_one_byte :
    (after (.crcFeed 1#3) (withData 0x65123456#32)).map Block.crcState = some 0x102585A5#32 := by decide +kernel
/-- L2-C13: BYTE_COUNT wraps. -/
theorem test_crc_feed_wraps :
    (after (.crcFeed 4#3) { Block.reset with byteCount := 0xFFFFFFFE#32 }).map Block.byteCount = some 2#32 := by
  decide +kernel
/-- P1 step 26. -/
theorem test_crc_final :
    (after .crcFinal { Block.reset with crcState := 0x542E27B1#32 }).map (fun b => (b.crcOut, b.statusWord)) =
      some (0xABD1D84E#32, 0x00000200#32) := by decide
/-- L2-C9 row 1. -/
theorem test_crc_verify_match :
    (after .crcVerify { endOfP1 with data := 0xABD1D84E#32 }).map Block.statusWord = some 0x00000205#32 := by decide
/-- L2-C9 row 2: the byte-swapped candidate. -/
theorem test_crc_verify_mismatch :
    (after .crcVerify { endOfP1 with data := 0x4ED8D1AB#32 }).map (fun b => (b.statusWord, b.crcOut)) =
      some (0x0000021E#32, 0xABD1D84E#32) := by decide
/-- L1-3: "RuSt". -/
theorem test_type_load : (after (.typeLoad false) (withData 0x52755374#32)).map
    (fun b => (b.typeReg, b.statusWord, b.typeFlagsWord)) = some (0x52755374#32, 0x00000004#32, 0x0000003B#32) := by
  decide
/-- L2-T4: a failing code is absorbed. -/
theorem test_type_load_absorbs_failing : (after (.typeLoad true) (withData 0x52753174#32)).map
    (fun b => (b.statusWord, b.crcState, b.byteCount)) = some (0x00000028#32, 0x7CB0FFE6#32, 4#32) := by
  decide +kernel
/-- L2-T3: the length check first, and no absorb. -/
theorem test_type_text_length_first : (after (.typeText 2#4 true) (withData 0x52753174#32)).map
    (fun b => (b.statusWord, b.crcState, b.typeReg)) = some (0x00000038#32, 0xFFFFFFFF#32, 0x52753174#32) := by
  decide
/-- L2-T2: ALPHA without TYPE_OK. -/
theorem test_type_text_alpha_only : (after (.typeText 5#4 false) (withData 0x52755374#32)).map
    (fun b => (b.statusWord, b.typeFlagsWord)) = some (0x00000038#32, 0x00000001#32) := by decide
/-- L2-X2 rows 1 and 3. -/
theorem test_err_clr :
    (after .errClr { Block.reset with outValid := true, crcMismatch := true, errCode := .checksumMismatch }).map
      Block.statusWord = some 0x00000202#32 ∧
    (after .errClr { Block.reset with errCode := .invalidLength, multiErr := true }).map Block.statusWord =
      some 0x00000000#32 := by decide

/-! ### The type-code flags, the checksum -/

/-- L2-T5, L2-T1: "tEXt" under both settings of VALID_SEL. -/
theorem test_valid_sel :
    ({ Block.reset with typeOk := true, typeReg := 0x74455874#32 } : Block).typeFlagsWord = 0x0000001D#32 ∧
    ({ Block.reset with typeOk := true, typeReg := 0x74455874#32, validSel := true } : Block).typeFlagsWord =
      0x0000003D#32 := by decide
/-- L2-T7: bytes next to the letter ranges. -/
theorem test_alphabetic_edges :
    [0x40#8, 0x5B#8, 0x60#8, 0x7B#8].map alphabetic = [false, false, false, false] ∧
    [0x41#8, 0x5A#8, 0x61#8, 0x7A#8].map alphabetic = [true, true, true, true] := by decide
/-- L2-C2. -/
theorem test_crc_byte :
    crcByte 0x00000000#32 0x52#8 = 0x856530D8#32 ∧ crcByte 0xFFFFFFFF#32 0x80#8 = 0xC0459352#32 := by decide +kernel
/-- L2-C3: "IEND", by both forms of the algorithm. -/
theorem test_crc_iend :
    crc32 (bytesOf 0x49454E44#32) = 0xAE426082#32 ∧ crc32Catalogue (bytesOf 0x49454E44#32) = 0xAE426082#32 := by
  decide +kernel

/-! ### Bus accesses, errors, reset (L2-B, L2-E, L2-R) -/

theorem test_read_id : answer ⟨0x00#6, .word, .read⟩ endOfP1 = some (.word 0x43524331#32) := by decide
theorem test_read_cmd : answer ⟨0x10#6, .word, .read⟩ endOfP1 = some (.word 0x00000000#32) := by decide
theorem test_read_out_be : (List.map (fun a => answer ⟨a, .byte, .read⟩ endOfP1) [0x28#6, 0x29#6, 0x2A#6, 0x2B#6]) =
    [some (.byte 0xAB#8), some (.byte 0xD1#8), some (.byte 0xD8#8), some (.byte 0x4E#8)] := by decide
/-- L2-B: a reserved offset, a misaligned one, a byte read of a word, a half access, a read-only register. -/
theorem test_bus_errors :
    answer ⟨0x2C#6, .word, .read⟩ endOfP1 = some (.busError 0x2C#6) ∧
    answer ⟨0x1A#6, .word, .read⟩ endOfP1 = some (.busError 0x1A#6) ∧
    answer ⟨0x08#6, .byte, .read⟩ endOfP1 = some (.busError 0x08#6) ∧
    answer ⟨0x0E#6, .half, .read⟩ endOfP1 = some (.busError 0x0E#6) ∧
    answer ⟨0x20#6, .word, .write 1#32⟩ endOfP1 = some (.busError 0x20#6) ∧
    afterEvent (.access ⟨0x20#6, .word, .write 1#32⟩) endOfP1 = some endOfP1 := by decide
/-- L2-B: CTRL bits 31:2 are RAZ/WI. -/
theorem test_write_ctrl :
    (afterEvent (.access (ctrlWrite 0xFFFFFFFF#32)) endOfP1).map Block.ctrlWord = some 0x00000003#32 := by decide
/-- L2-E2: an Illegal word changes only STATUS. -/
theorem test_illegal_command :
    afterEvent (.access (commandWrite 0x00000005#32)) endOfP1 = some { endOfP1 with errCode := .illegalCmd } ∧
    ({ endOfP1 with errCode := .illegalCmd } : Block).statusWord = 0x0000024C#32 := by decide
/-- L2-E3: the four rows. -/
theorem test_irq :
    Block.reset.irq = false ∧ ({ Block.reset with irqEn := true } : Block).irq = false ∧
    ({ Block.reset with errCode := .invalidTypeCode } : Block).irq = false ∧
    ({ Block.reset with irqEn := true, errCode := .invalidTypeCode } : Block).irq = true := by decide
/-- R118. -/
theorem test_reset : afterEvent .reset endOfP1 = some Block.reset := by decide
/-- The host's probe: the first step after reset runs the table word. -/
theorem test_fetch_word :
    (match step (State.reset.withFetchWord 32 0x4011) with
      | .next t => some t.block.errCode
      | .fault _ => none
      | .refused _ => none) = some .invalidTypeCode := by decide

/-! ### Witnesses: hypotheses that can be met -/

theorem witness_DecodeOfEncode : (Instr.crcFeed 4#3).wellFormed = true ∧ (Instr.typeText 15#4 true).wellFormed = true := by
  decide
theorem witness_EncodeOfDecode : decode 0x00000302#32 = .command (.crcFeed 4#3) := by decide
theorem witness_AtMostOneRowAccepts : rowTypeText ∈ opcodeRows ∧ rowTypeText.accepts 0x0000F111#32 = true := by decide
theorem witness_ReservedBitMakesIllegal :
    opcodeField 0x00000402#32 ∈ [0x00#8, 0x01#8, 0x02#8, 0x03#8, 0x04#8, 0x10#8, 0x11#8, 0x20#8] := by decide
theorem witness_UnassignedOpcodeRecordsIllegalCmd :
    opcodeField 0x00000005#32 ∉ [0x00#8, 0x01#8, 0x02#8, 0x03#8, 0x04#8, 0x10#8, 0x11#8, 0x20#8] := by decide
theorem witness_StepPerformsWrittenCommand :
    decode 0x00000020#32 = .command .errClr ∧ decode 0x00000012#32 = .illegal (.unassignedOpcode 0x12#8) := by decide
theorem witness_IllegalWordChangesErrorRecordOnly :
    decode 0x00000203#32 = .illegal .reservedBit ∧ State.reset.block.errCode = .none := by decide
/-- The edges of R35's three clauses. -/
theorem witness_BusErrorExactlyWhenNotAdmitted :
    Request.admitted ⟨0x24#6, .word, .read⟩ = true ∧ Request.admitted ⟨0x28#6, .word, .read⟩ = false ∧
    Request.admitted ⟨0x27#6, .byte, .read⟩ = false ∧ Request.admitted ⟨0x2B#6, .byte, .read⟩ = true ∧
    Request.admitted ⟨0x2C#6, .byte, .read⟩ = false ∧ Request.admitted ⟨0x10#6, .word, .write 0#32⟩ = true ∧
    Request.admitted ⟨0x14#6, .word, .write 0#32⟩ = false := by decide
theorem witness_WordReadsAnswerRegisters :
    (0x24#6, endOfP1.typeFlagsWord) ∈ [(0x18#6, endOfP1.crcOut), (0x24#6, endOfP1.typeFlagsWord)] := by decide
theorem witness_ReadsAreIdempotent : (⟨0x28#6, .byte, .read⟩ : Request).dir = .read := by decide
/-- The first and the last address of the window, and the one after it. -/
theorem witness_WindowRouting :
    routeAccess Config.pBase .word .read = some ⟨0x00#6, .word, .read⟩ ∧
    routeAccess (Config.pBase + 0x3F) .byte .read = some ⟨0x3F#6, .byte, .read⟩ ∧
    routeAccess (Config.pBase + 0x40) .byte .read = none := by
  simp [routeAccess]
theorem witness_StatementsExpandToAdmittedAccesses :
    (Stmt.rdb 3).wellFormed = true ∧ (⟨0x2B#6, .byte, .read⟩ : Request) ∈ (Stmt.rdb 3).expand ∧
    (Reg.typeFlags, 0x24#6) ∈ [(Reg.id, 0x00#6), (.typeFlags, 0x24#6)] ∧
    ((3, 0x2B#6) : Nat × Offset) ∈ [(0, 0x28#6), (3, 0x2B#6)] ∧
    (Instr.errClr, 0x00000020#32) ∈ [(Instr.nop, 0x00000000#32), (.errClr, 0x00000020#32)] := by decide
theorem witness_NopChangesNothing : opcodeField 0x80000000#32 = 0x00#8 ∧ (0x80000000#32 : Word) ≠ 0x00000000#32 := by
  decide
theorem witness_CrcInitStartsMessage : exec .crcInit State.reset = .next State.reset := rfl
theorem witness_CrcFeedAbsorbsFirstBytes :
    (machine (withData 0x52755374#32)).block.crcState = 0xFFFFFFFF#32 ∧
    (machine (withData 0x52755374#32)).block.byteCount = 0#32 ∧
    (machine (withData 0x52755374#32)).block.data = 0x52755374#32 := by decide
theorem witness_CrcFinalProducesChecksum :
    (machine endOfP1).block.crcState = 0x542E27B1#32 ∧ exec .crcFinal (machine endOfP1) = .next (machine endOfP1) :=
  ⟨rfl, rfl⟩
theorem witness_CrcVerifyCompares :
    (withData 0x00000000#32).crcState ^^^ 0xFFFFFFFF#32 = (withData 0x00000000#32).data ∧
    (withData 0x00000001#32).crcState ^^^ 0xFFFFFFFF#32 ≠ (withData 0x00000001#32).data := by decide
theorem witness_TypeLoadValidates : (machine (withData 0x52755374#32)).block.data = 0x52755374#32 := by decide
theorem witness_TypeTextChecksLengthThenLoads :
    (0#4 : BitVec 4) ≠ 4#4 ∧ (15#4 : BitVec 4) ≠ 4#4 ∧
    (withData 0x52753174#32).errCode = .none ∧ (withData 0x52753174#32).data = 0x52753174#32 ∧
    (withData 0x52750000#32).data = 0x52750000#32 ∧ (withData 0x52755374#32).data = 0x52755374#32 := by decide
/-- A block with an error recorded, CRC_MISMATCH and OUT_VALID set: STATUS = 0x0000021A. -/
def mismatched : Block :=
  { Block.reset with irqEn := true, crcMismatch := true, outValid := true, errCode := .checksumMismatch }
theorem witness_ErrClrClearsRecord :
    mismatched.statusWord = 0x0000021A#32 ∧
    (after .errClr mismatched).map Block.errCode = some .none ∧ ErrCode.none.bits < mismatched.errCode.bits := by
  decide
theorem witness_CommandFrameInWindow :
    exec .crcFinal State.reset = .next { State.reset with block := { Block.reset with outValid := true } } ∧
    (0x14#6 : Offset) ∉ wordsWritten .crcFinal ∧ Instr.nop ≠ .crcFinal ∧ Instr.nop ≠ .crcVerify ∧
    exec .nop State.reset = .next State.reset :=
  ⟨rfl, by decide, by decide, by decide, rfl⟩
theorem witness_CommandFrameInStatus : exec .errClr State.reset = .next State.reset := rfl
theorem witness_StepNeverStops (r : Request) :
    Event.access ⟨0x3F#6, .half, .read⟩ ≠ .resetOverlapping r ∧ Event.reset ≠ .resetOverlapping r ∧
    State.reset.pending = [] :=
  ⟨nofun, nofun, rfl⟩
theorem witness_FirstErrorIsSticky :
    (mismatched.errCode ≠ .none) ∧
    step { machine mismatched with pending := [.access (dataWrite 1#32)] } =
      .next { block := mismatched.writeData 1#32, pending := [], completed := [⟨dataWrite 1#32, .okay⟩] } ∧
    (Event.access (dataWrite 1#32) ≠ .reset ∧
      Event.access (dataWrite 1#32) ≠ .access ⟨0x10#6, .word, .write 0x00000020#32⟩) ∧
    ({ mismatched with multiErr := true } : Block).multiErr = true :=
  ⟨by decide, rfl, by decide, rfl⟩
theorem witness_OneErrorPerCommand :
    State.reset.block.errCode = .none ∧ State.reset.block.multiErr = false ∧
    performCommand 0x00000005#32 State.reset =
      .next { State.reset with block := { Block.reset with errCode := .illegalCmd } } :=
  ⟨rfl, rfl, rfl⟩
theorem witness_IrqFallsOnlyByAcknowledge :
    mismatched.irq = true ∧ mismatched.statusWord.getLsbD 3 = true ∧ (2#32 : Word).getLsbD 1 = true ∧
    step { machine mismatched with pending := [.access (commandWrite 0x20#32)] } =
      .next { block := mismatched.clearError, pending := [], completed := [⟨commandWrite 0x20#32, .okay⟩] } :=
  ⟨by decide, by decide, by decide, rfl⟩
theorem witness_ConsistentKeptByStep :
    mismatched.crcState ^^^ mismatched.crcOut = 0xFFFFFFFF#32 ∧ mismatched.Consistent ∧
    step { machine mismatched with pending := [.access (commandWrite 0x20#32)] } =
      .next { block := mismatched.clearError, pending := [], completed := [⟨commandWrite 0x20#32, .okay⟩] } :=
  ⟨by decide, by decide, rfl⟩
/-- A write of TYPE.LOAD from reset with "RuSt" in DATA sets TYPE_OK. -/
theorem witness_TypeOkOnlyByValidation :
    ∃ t, step { machine (withData 0x52755374#32) with pending := [.access ⟨0x10#6, .word, .write 0x10#32⟩] } =
        .next t ∧ t.block.typeOk = true ∧ (withData 0x52755374#32).typeOk = false :=
  ⟨_, rfl, by decide, rfl⟩
theorem witness_CaseFlagsMatchLetterCase : alpha4 0x52755374#32 = true := by decide
theorem witness_TypeFlagsShowValidatedCode :
    Block.reset.typeOk = false ∧ endOfP1.Consistent ∧ endOfP1.typeOk = true := by decide
/-- The five codes of R99's table, each held by some block. -/
theorem witness_StatusWordFields :
    [ErrCode.none, .checksumMismatch, .invalidTypeCode, .invalidLength, .illegalCmd].map
      (fun c => ({ Block.reset with errCode := c } : Block).statusWord) =
    [0x000#32, 0x018#32, 0x028#32, 0x038#32, 0x048#32] := by decide
theorem witness_TextFormIsFourLetters :
    endOfP1.Consistent ∧ endOfP1.textForm? = some [0x52#8, 0x75#8, 0x53#8, 0x74#8] := by decide
/-- L1-6: bit 7, the last of the range, on the last payload byte of the reference message. -/
theorem witness_SingleBitFlipIsDetected :
    7 < 8 ∧ (machine { Block.reset with
      crcState := crcBytes 0xFFFFFFFF#32 ([] ++ (0x21#8 ^^^ (1#8 <<< 7)) :: [])
      data := crc32 ([] ++ 0x21#8 :: []) }).block.data = crc32 ([] ++ 0x21#8 :: []) :=
  ⟨by decide, rfl⟩
theorem witness_ByteCountWraps :
    (machine { Block.reset with byteCount := 0xFFFFFFFE#32 }).block.byteCount = 0xFFFFFFFE#32 := by decide
theorem witness_BytesBeyondCountIgnored :
    firstBytes 0x65FFFFFF#32 ((0#2 : BitVec 2).toNat + 1) =
      firstBytes (machine (withData 0x65000000#32)).block.data ((0#2 : BitVec 2).toNat + 1) ∧
    ∃ t, exec (.crcFeed (feedCount 0#2)) (machine (withData 0x65000000#32)) = .next t :=
  ⟨by decide, _, rfl⟩
/-- L2-C5: two divisions of "RuSt" into absorbing statements. -/
theorem witness_SplitInvariance :
    [Absorbing.feed 3#2 0x52755374#32].flatMap Absorbing.bytes =
      [Absorbing.feed 1#2 0x52750000#32, .feed 1#2 0x53740000#32].flatMap Absorbing.bytes := by decide
theorem witness_VerificationDecidesChunk :
    State.reset.block.errCode = .none ∧ State.reset.block.multiErr = false ∧ alpha4 0x52755374#32 = true ∧
    alpha4 0x52753174#32 = false := by decide
theorem witness_ObservationGrowsByReads :
    step { State.reset with pending := [.access ⟨0x00#6, .word, .read⟩] } =
      .next { State.reset with completed := [⟨⟨0x00#6, .word, .read⟩, .word 0x43524331#32⟩] } ∧
    (⟨0x00#6, .word, .read⟩ : Request).dir = .read ∧
    (dataWrite 1#32).dir ≠ .read ∧
    (∃ t, step { State.reset with pending := [.access (dataWrite 1#32)] } = .next t) :=
  ⟨rfl, rfl, by decide, _, rfl⟩

end Sys2Proof.Tests
end

/-! SUPPORT. The frame of every command (00_scope.md R11): each group of stored items is either named by the command's
rule, in `wordsWritten` or `statusWritten`, or kept by its effect. The groups are then read through the window (O31)
and through STATUS (O32). -/

namespace Sys2Proof.Machine

/-! ### The outcomes of a command -/

/-- One row per outcome of a command on the block `b`: the words and the STATUS bits its rule names as written, and the
block it leaves. `commandOutcome` ties it to the model. -/
inductive CommandOutcome (b : Block) : List Offset → Word → Block → Prop where
  | nop : CommandOutcome b [] 0x000#32 b
  | crcInit : CommandOutcome b [0x08#6, 0x14#6, 0x1C#6] 0x203#32 b.startMessage
  | crcFeed (n : Nat) : CommandOutcome b [0x08#6, 0x14#6, 0x1C#6] 0x203#32 (b.absorb b.data n)
  | crcFinal : CommandOutcome b [0x08#6, 0x18#6] 0x200#32 b.produce
  | verifyMatch : CommandOutcome b [0x08#6, 0x18#6] 0x3FB#32 (b.produce.setVerdict true)
  | verifyMismatch :
    CommandOutcome b [0x08#6, 0x18#6] 0x3FB#32 ((b.produce.setVerdict false).recordError .checksumMismatch)
  | load : CommandOutcome b [0x08#6, 0x20#6, 0x24#6] 0x1FC#32 (b.loadType false)
  | loadAbsorb : CommandOutcome b [0x08#6, 0x14#6, 0x1C#6, 0x20#6, 0x24#6] 0x3FF#32 (b.loadType true)
  | wrongLength :
    CommandOutcome b [0x08#6, 0x20#6, 0x24#6] 0x1FC#32 ((b.setType false).recordError .invalidLength)
  | errClr : CommandOutcome b [0x08#6] 0x1F8#32 b.clearError

/-- Every command has one of the outcomes. -/
theorem commandOutcome (i : Instr) (b : Block) :
    CommandOutcome b (wordsWritten i) (statusWritten i) (effectOf i b) := by
  cases i with
  | nop => exact .nop
  | crcInit => exact .crcInit
  | crcFeed n => exact .crcFeed n.toNat
  | crcFinal => exact .crcFinal
  | crcVerify =>
    simp only [effectOf]
    split
    · exact .verifyMatch
    · exact .verifyMismatch
  | typeLoad a =>
    cases a
    · exact .load
    · exact .loadAbsorb
  | typeText len a =>
    by_cases h : len = 4#4
    · subst h
      cases a
      · exact .load
      · exact .loadAbsorb
    · simpa [effectOf, wordsWritten, statusWritten, h] using CommandOutcome.wrongLength
  | errClr => exact .errClr

/-! ### What an outcome keeps, one group of stored items at a time -/

section Groups

variable {b b' : Block} {words : List Offset} {flags : Word}

/-- No command writes CTRL or DATA. -/
theorem CommandOutcome.ctrl_data (h : CommandOutcome b words flags b') :
    b'.validSel = b.validSel ∧ b'.irqEn = b.irqEn ∧ b'.data = b.data := by
  cases h with
  | load | loadAbsorb => simp [Block.loadType_eq]
  | _ => exact ⟨rfl, rfl, rfl⟩

/-- CRC_STATE and BYTE_COUNT are written together. -/
theorem CommandOutcome.message (h : CommandOutcome b words flags b') :
    (0x14#6 ∈ words ∧ 0x1C#6 ∈ words) ∨ (b'.crcState = b.crcState ∧ b'.byteCount = b.byteCount) := by
  cases h with
  | crcInit | crcFeed | loadAbsorb => exact .inl (by decide)
  | load => exact .inr (by simp [Block.loadType_eq])
  | _ => exact .inr ⟨rfl, rfl⟩

theorem CommandOutcome.crcOut (h : CommandOutcome b words flags b') :
    0x18#6 ∈ words ∨ b'.crcOut = b.crcOut := by
  cases h with
  | crcFinal | verifyMatch | verifyMismatch => exact .inl (by decide)
  | load | loadAbsorb => exact .inr (by simp [Block.loadType_eq])
  | _ => exact .inr rfl

/-- TYPE and TYPE_OK are written together, and TYPE_FLAGS follows them. -/
theorem CommandOutcome.type (h : CommandOutcome b words flags b') :
    (0x20#6 ∈ words ∧ 0x24#6 ∈ words ∧ flags &&& 0x004#32 = 0x004#32) ∨
      (b'.typeReg = b.typeReg ∧ b'.typeOk = b.typeOk) := by
  cases h with
  | load | loadAbsorb | wrongLength => exact .inl (by decide)
  | _ => exact .inr ⟨rfl, rfl⟩

/-- CRC_MATCH and CRC_MISMATCH are written together. -/
theorem CommandOutcome.verdict (h : CommandOutcome b words flags b') :
    flags &&& 0x003#32 = 0x003#32 ∨ (b'.crcMatch = b.crcMatch ∧ b'.crcMismatch = b.crcMismatch) := by
  cases h with
  | crcInit | crcFeed | verifyMatch | verifyMismatch | loadAbsorb => exact .inl (by decide)
  | load => exact .inr (by simp [Block.loadType_eq])
  | _ => exact .inr ⟨rfl, rfl⟩

/-- ERR_CODE and MULTI_ERR are written together, and ERR follows ERR_CODE. -/
theorem CommandOutcome.errorRecord (h : CommandOutcome b words flags b') :
    flags &&& 0x1F8#32 = 0x1F8#32 ∨ (b'.errCode = b.errCode ∧ b'.multiErr = b.multiErr) := by
  cases h with
  | verifyMatch | verifyMismatch | load | loadAbsorb | wrongLength | errClr => exact .inl (by decide)
  | _ => exact .inr ⟨rfl, rfl⟩

theorem CommandOutcome.outValid (h : CommandOutcome b words flags b') :
    flags &&& 0x200#32 = 0x200#32 ∨ b'.outValid = b.outValid := by
  cases h with
  | crcInit | crcFeed | crcFinal | verifyMatch | verifyMismatch | loadAbsorb => exact .inl (by decide)
  | load => exact .inr (by simp [Block.loadType_eq])
  | _ => exact .inr rfl

/-- Every command but NOP names STATUS among the words it writes. -/
theorem CommandOutcome.status (h : CommandOutcome b words flags b') :
    0x08#6 ∈ words ∨ b' = b := by
  cases h with
  | nop => exact .inr rfl
  | _ => exact .inl (by decide)

/-! ### The groups through the window -/

/-- A register reads as before unless the rule names it. -/
theorem CommandOutcome.readReg (h : CommandOutcome b words flags b') (reg : Reg) :
    reg.offset ∈ words ∨ b'.readReg reg = b.readReg reg := by
  obtain ⟨hsel, hirq, hdata⟩ := h.ctrl_data
  cases reg with
  | id | cmd => exact .inr rfl
  | ctrl => exact .inr (by simp [Block.readReg, Block.ctrlWord, hsel, hirq])
  | status => exact h.status.imp_right (congrArg Block.statusWord)
  | data => exact .inr hdata
  | crcState => exact h.message.imp And.left And.left
  | crcOut => exact h.crcOut
  | byteCount => exact h.message.imp And.right And.right
  | typeCode => exact h.type.imp And.left And.left
  | typeFlags =>
    refine h.type.imp (fun ⟨_, hflags, _⟩ => hflags) fun ⟨hreg, hok⟩ => ?_
    simp [Block.readReg, Block.typeFlagsWord, hsel, hreg, hok]

end Groups

/-- A word read answers alike on two blocks when the register at its offset, if there is one, reads alike. -/
theorem Block.readWord?_congr {b b' : Block} {a : Offset}
    (h : ∀ reg : Reg, a = reg.offset → b'.readReg reg = b.readReg reg) : b'.readWord? a = b.readWord? a := by
  unfold Block.readWord?
  exact Option.map_congr fun reg hreg => h reg ((Reg.at?_eq_some_iff a reg).1 hreg)

/-- The byte reads are those of CRC_OUT. -/
theorem Block.readByte?_eq_of_crcOut_eq {b b' : Block} (h : b'.crcOut = b.crcOut) (a : Offset) :
    b'.readByte? a = b.readByte? a := by
  simp [Block.readByte?, Block.outBe, h]

/-- Only CRC.FINAL and CRC.VERIFY name CRC_OUT among the words they write. -/
theorem eq_of_crcOut_mem_wordsWritten {i : Instr} (h : 0x18#6 ∈ wordsWritten i) :
    i = .crcFinal ∨ i = .crcVerify := by
  cases i with
  | crcFinal => exact .inl rfl
  | crcVerify => exact .inr rfl
  | typeLoad a => revert a; decide
  | typeText len a => revert len a; decide
  | nop | crcInit | crcFeed | errClr => simp [wordsWritten] at h

/-! ### The groups through STATUS -/

/-- The STATUS word cut into the groups of flags that commands write together; no other bit of it is 1. -/
theorem Block.statusWord_and_groups (b : Block) :
    b.statusWord &&& 0x003#32 = statusOf b.crcMatch b.crcMismatch false .none false false ∧
    b.statusWord &&& 0x004#32 = statusOf false false b.typeOk .none false false ∧
    b.statusWord &&& 0x1F8#32 = statusOf false false false b.errCode b.multiErr false ∧
    b.statusWord &&& 0x200#32 = statusOf false false false .none false b.outValid ∧
    b.statusWord &&& 0xFFFFFC00#32 = 0#32 := by
  rw [Block.statusWord_eq]
  generalize b.crcMatch = crcMatch, b.crcMismatch = crcMismatch, b.typeOk = typeOk, b.errCode = code,
    b.multiErr = multiErr, b.outValid = outValid
  cases code <;> decide +revert

/-- Two words differ nowhere in a group of bits outside `flags` when the group lies in `flags` or they agree on it. -/
theorem xor_and_not_and_group {x y flags group : Word}
    (h : flags &&& group = group ∨ x &&& group = y &&& group) : (x ^^^ y) &&& ~~~flags &&& group = 0#32 := by
  apply BitVec.eq_of_getLsbD_eq
  intro k hk
  rcases h with h | h
  · have hbit : (flags.getLsbD k && group.getLsbD k) = group.getLsbD k := by rw [← BitVec.getLsbD_and, h]
    cases hg : group.getLsbD k <;> simp_all
  · have hbit : (x.getLsbD k && group.getLsbD k) = (y.getLsbD k && group.getLsbD k) := by
      rw [← BitVec.getLsbD_and, h, BitVec.getLsbD_and]
    cases hg : group.getLsbD k <;> simp_all

/-- Every STATUS bit outside `flags` is unchanged when each group of flags either lies in `flags` or keeps its
stored items. -/
theorem Block.statusWord_frame {b b' : Block} {flags : Word}
    (hverdict : flags &&& 0x003#32 = 0x003#32 ∨ (b'.crcMatch = b.crcMatch ∧ b'.crcMismatch = b.crcMismatch))
    (htype : flags &&& 0x004#32 = 0x004#32 ∨ b'.typeOk = b.typeOk)
    (herror : flags &&& 0x1F8#32 = 0x1F8#32 ∨ (b'.errCode = b.errCode ∧ b'.multiErr = b.multiErr))
    (hout : flags &&& 0x200#32 = 0x200#32 ∨ b'.outValid = b.outValid) :
    (b'.statusWord ^^^ b.statusWord) &&& ~~~flags = 0#32 := by
  obtain ⟨verdict, type, error, out, rest⟩ := b.statusWord_and_groups
  obtain ⟨verdict', type', error', out', rest'⟩ := b'.statusWord_and_groups
  have hall : BitVec.allOnes 32 = 0x003#32 ||| 0x004#32 ||| 0x1F8#32 ||| 0x200#32 ||| 0xFFFFFC00#32 := by decide
  rw [← BitVec.and_allOnes (x := _ &&& _), hall]
  simp only [BitVec.and_or_distrib_left]
  rw [xor_and_not_and_group (hverdict.imp_right fun ⟨hm, hmm⟩ => by rw [verdict', verdict, hm, hmm]),
    xor_and_not_and_group (htype.imp_right fun ht => by rw [type', type, ht]),
    xor_and_not_and_group (herror.imp_right fun ⟨hc, hm⟩ => by rw [error', error, hc, hm]),
    xor_and_not_and_group (hout.imp_right fun ho => by rw [out', out, ho]),
    xor_and_not_and_group (.inr (rest'.trans rest.symm))]
  rfl

end Sys2Proof.Machine

section

open Sys2Proof Sys2Proof.Machine

/-- Settles O31: each register is named by the command's rule or kept by its outcome, and OUT_BE is CRC_OUT. -/
theorem commandFrameInWindow : Obligations.CommandFrameInWindow := by
  intro i s t hexec
  obtain rfl := exec_next_iff.1 hexec
  have h := commandOutcome i s.block
  refine ⟨fun a ha => ?_, fun a hfinal hverify => ?_, h.ctrl_data, rfl, rfl⟩
  · refine Block.readWord?_congr fun reg hreg => (h.readReg reg).resolve_left ?_
    rwa [← hreg]
  · refine Block.readByte?_eq_of_crcOut_eq (h.crcOut.resolve_left fun hmem => ?_) a
    exact (eq_of_crcOut_mem_wordsWritten hmem).elim hfinal hverify

/-- Settles O32: each group of STATUS flags is named by the command's rule or kept by its outcome. -/
theorem commandFrameInStatus : Obligations.CommandFrameInStatus := by
  intro i s t hexec
  obtain rfl := exec_next_iff.1 hexec
  have h := commandOutcome i s.block
  exact Block.statusWord_frame h.verdict (h.type.imp (fun ⟨_, _, hok⟩ => hok) And.right) h.errorRecord h.outValid

end

/-! SUPPORT. The stored state and how it reads (10_state.md): the fields of the CTRL, STATUS and TYPE_FLAGS words, the
relations that every step keeps, and what lowers `irq`. -/

namespace Sys2Proof.Machine

/-! ### What an access can change -/

/-- The only accesses that can change the block are the writes of CTRL, DATA and CMD. -/
theorem admittedWrite_or_blockAfter_eq (r : Request) :
    (∃ v, r = ctrlWrite v) ∨ (∃ v, r = dataWrite v) ∨ (∃ w, r = commandWrite w) ∨ ∀ b, blockAfter r b = b := by
  obtain ⟨a, size, dir⟩ := r
  cases dir with
  | read => exact .inr (.inr (.inr fun _ => rfl))
  | write v =>
    cases size with
    | byte | half => exact .inr (.inr (.inr fun _ => rfl))
    | word =>
      by_cases hctrl : a = Reg.ctrl.offset
      · exact .inl ⟨v, by rw [hctrl]; rfl⟩
      by_cases hdata : a = Reg.data.offset
      · exact .inr (.inl ⟨v, by rw [hdata]; rfl⟩)
      by_cases hcmd : a = Reg.cmd.offset
      · exact .inr (.inr (.inl ⟨v, by rw [hcmd]; rfl⟩))
      · exact .inr (.inr (.inr fun _ => by simp [blockAfter, hctrl, hdata, hcmd]))

/-! ### What a command word does -/

theorem effectOfWord_of_command {w : Word} {i : Instr} (h : decode w = .command i) (b : Block) :
    effectOfWord w b = effectOf i b := by
  simp [effectOfWord, h]

theorem effectOfWord_of_illegal {w : Word} {why : Illegal} (h : decode w = .illegal why) (b : Block) :
    effectOfWord w b = b.recordError .illegalCmd := by
  simp [effectOfWord, h]

/-- ERR.CLR has no operand and no ignored bit: it is one word. -/
theorem decode_eq_errClr_iff (w : Word) : decode w = .command .errClr ↔ w = 0x00000020#32 := by
  constructor
  · intro h
    have hrow : rowErrClr.accepts w = true := by
      by_contra hrow
      simp only [decode, hrow, if_false] at h
      split_ifs at h <;> cases h
    have hfull : w &&& BitVec.allOnes 32 = 0x00000020#32 := by simpa [Row.accepts, rowErrClr] using hrow
    rwa [BitVec.and_allOnes] at hfull
  · rintro rfl
    decide

/-- The first error stays recorded until ERR.CLR (60_exceptions.md R101). -/
theorem effectOf_errCode_of_error {i : Instr} {b : Block} (hi : i ≠ .errClr) (h : b.errCode ≠ .none) :
    (effectOf i b).errCode = b.errCode := by
  cases i with
  | errClr => exact absurd rfl hi
  | nop | crcInit | crcFeed | crcFinal => rfl
  | crcVerify =>
    simp only [effectOf]
    split
    · rfl
    · simp [h]
  | typeLoad a => simp [effectOf, Block.loadType_eq, h]
  | typeText len a =>
    simp only [effectOf]
    split
    · simp [Block.loadType_eq, h]
    · simp [h]

/-! ### The relations every step keeps -/

namespace Block.Consistent

variable {b : Block}

theorem recordError (h : b.Consistent) (code : ErrCode) : (b.recordError code).Consistent := by
  obtain ⟨hone, htype, hout, hverdict, hmulti⟩ := h
  refine ⟨hone, htype, hout, hverdict, ?_⟩
  by_cases hnone : b.errCode = .none
  · simpa [hnone] using fun hset : b.multiErr = true => absurd hnone (hmulti hset)
  · simp [hnone]

theorem clearError (h : b.Consistent) : b.clearError.Consistent := by
  obtain ⟨hone, htype, hout, hverdict, -⟩ := h
  exact ⟨hone, htype, hout, hverdict, nofun⟩

theorem startMessage (h : b.Consistent) : b.startMessage.Consistent := by
  obtain ⟨-, htype, -, -, hmulti⟩ := h
  exact ⟨rfl, htype, nofun, nofun, hmulti⟩

theorem absorb (h : b.Consistent) (w : Word) (n : Nat) : (b.absorb w n).Consistent := by
  obtain ⟨-, htype, -, -, hmulti⟩ := h
  exact ⟨rfl, htype, nofun, nofun, hmulti⟩

theorem produce (h : b.Consistent) : b.produce.Consistent := by
  obtain ⟨hone, htype, -, -, hmulti⟩ := h
  exact ⟨hone, htype, fun _ => rfl, fun _ => rfl, hmulti⟩

/-- A verdict may stand while CRC_OUT is current. -/
theorem setVerdict (h : b.Consistent) (hcurrent : b.outValid = true) (equal : Bool) :
    (b.setVerdict equal).Consistent := by
  obtain ⟨-, htype, hout, -, hmulti⟩ := h
  exact ⟨Bool.and_not_self equal, htype, hout, fun _ => hcurrent, hmulti⟩

/-- TYPE_OK may be set when DATA, which goes to TYPE, is alphabetic. -/
theorem setType (h : b.Consistent) {ok : Bool} (hok : ok = true → alpha4 b.data = true) :
    (b.setType ok).Consistent := by
  obtain ⟨hone, -, hout, hverdict, hmulti⟩ := h
  exact ⟨hone, hok, hout, hverdict, hmulti⟩

theorem loadType (h : b.Consistent) (a : Bool) : (b.loadType a).Consistent := by
  have hset : (b.setType (alpha4 b.data)).Consistent := h.setType id
  simp only [Block.loadType]
  split_ifs
  · exact hset.absorb b.data 4
  · exact hset
  · exact (hset.absorb b.data 4).recordError .invalidTypeCode
  · exact hset.recordError .invalidTypeCode

/-- No relation speaks of CTRL. -/
theorem writeCtrl (h : b.Consistent) (v : Word) : (b.writeCtrl v).Consistent := h

/-- No relation speaks of DATA. -/
theorem writeData (h : b.Consistent) (v : Word) : (b.writeData v).Consistent := h

theorem commandOutcome {words : List Offset} {flags : Word} {b' : Block} (h : b.Consistent)
    (ho : CommandOutcome b words flags b') : b'.Consistent := by
  cases ho with
  | nop => exact h
  | crcInit => exact h.startMessage
  | crcFeed n => exact h.absorb b.data n
  | crcFinal => exact h.produce
  | verifyMatch => exact h.produce.setVerdict rfl true
  | verifyMismatch => exact (h.produce.setVerdict rfl false).recordError .checksumMismatch
  | load => exact h.loadType false
  | loadAbsorb => exact h.loadType true
  | wrongLength => exact (h.setType (ok := false) nofun).recordError .invalidLength
  | errClr => exact h.clearError

theorem effectOfWord (h : b.Consistent) (w : Word) : (effectOfWord w b).Consistent := by
  cases hw : decode w with
  | command i => exact effectOfWord_of_command hw b ▸ h.commandOutcome (Machine.commandOutcome i b)
  | illegal why => exact effectOfWord_of_illegal hw b ▸ h.recordError .illegalCmd

theorem blockAfter (h : b.Consistent) (r : Request) : (blockAfter r b).Consistent := by
  rcases admittedWrite_or_blockAfter_eq r with ⟨v, rfl⟩ | ⟨v, rfl⟩ | ⟨w, rfl⟩ | hkept
  · exact h.writeCtrl v
  · exact h.writeData v
  · exact h.effectOfWord w
  · rwa [hkept]

theorem reset : Block.reset.Consistent := by decide

theorem blockAfterEvent (h : b.Consistent) (e : Event) : (blockAfterEvent e b).Consistent := by
  cases e with
  | access r => exact h.blockAfter r
  | reset => exact reset
  | resetOverlapping r => exact h

end Block.Consistent

/-! ### The word CTRL reads as (10_state.md R15) -/

/-- Only bits 1:0 of a word written to CTRL read back. -/
theorem Block.ctrlWord_writeCtrl (b : Block) (v : Word) : (b.writeCtrl v).ctrlWord = v &&& 0x00000003#32 := by
  apply BitVec.eq_of_getLsbD_eq
  intro k hk
  simp only [Block.ctrlWord, BitVec.getLsbD_append, BitVec.getLsbD_and, BitVec.getLsbD_ofBool]
  match k with
  | 0 | 1 => simp
  | k + 2 => simp [BitVec.getLsbD_ofNat, Nat.testBit_succ]

/-! ### The word STATUS reads as (10_state.md R16) -/

theorem Block.statusWord_flags (b : Block) :
    b.statusWord.getLsbD 0 = b.crcMatch ∧ b.statusWord.getLsbD 1 = b.crcMismatch ∧
    b.statusWord.getLsbD 2 = b.typeOk ∧ b.statusWord.getLsbD 3 = b.err ∧
    b.statusWord.getLsbD 8 = b.multiErr ∧ b.statusWord.getLsbD 9 = b.outValid := by
  simp only [Block.statusWord, BitVec.getLsbD_append]
  simp

theorem Block.statusWord_errCode (b : Block) : b.statusWord.extractLsb' 4 4 = b.errCode.bits := by
  apply BitVec.eq_of_getLsbD_eq
  intro k hk
  simp only [Block.statusWord, BitVec.getLsbD_extractLsb', BitVec.getLsbD_append]
  interval_cases k <;> rfl

theorem Block.statusWord_reserved (b : Block) : b.statusWord.extractLsb' 10 22 = 0#22 := by
  apply BitVec.eq_of_getLsbD_eq
  intro k hk
  have habove : ¬ 6 + k < 4 ∧ 6 + k - 4 = k + 2 := by omega
  simp only [Block.statusWord, BitVec.getLsbD_extractLsb', BitVec.getLsbD_append]
  simp [habove]

theorem ErrCode.bits_le_four (code : ErrCode) : code.bits ≤ 4#4 := by
  cases code <;> decide

/-! ### The word TYPE_FLAGS reads as (40_typecode.md R73) -/

/-- The TYPE_FLAGS bits that can be 1, bit 0 first. -/
def Block.typeFlags (b : Block) : List Bool :=
  [alpha4 b.typeReg, b.typeOk && crit b.typeReg, b.typeOk && pub b.typeReg, b.typeOk && res b.typeReg,
    b.typeOk && safe b.typeReg, b.typeOk && valid b.validSel b.typeReg]

theorem Block.typeFlagsWord_getLsbD (b : Block) (k : Nat) :
    b.typeFlagsWord.getLsbD k = b.typeFlags.getD k false := by
  simp only [Block.typeFlagsWord, Block.typeFlags, BitVec.getLsbD_append, BitVec.getLsbD_ofBool]
  match k with
  | 0 | 1 | 2 | 3 | 4 | 5 => simp
  | k + 6 => simp

theorem Block.typeFlagsWord_reserved (b : Block) : b.typeFlagsWord.extractLsb' 6 26 = 0#26 := by
  apply BitVec.eq_of_getLsbD_eq
  intro k hk
  have hbeyond : b.typeFlags.getD (6 + k) false = false := List.getD_eq_default _ _ (Nat.le_add_right 6 k)
  rw [BitVec.getLsbD_extractLsb', Block.typeFlagsWord_getLsbD, hbeyond, Bool.and_false, BitVec.getLsbD_zero]

/-- On an alphabetic byte bit 5 is 0 for uppercase and 1 for lowercase. -/
theorem bitFive_of_alphabetic {b : Byte} (h : alphabetic b = true) :
    (!b.getLsbD 5) = uppercase b ∧ b.getLsbD 5 = lowercase b := by
  revert b
  decide

/-- On letters the case bits of TYPE are the letters' case (40_typecode.md R69, R70). -/
theorem caseBits_of_alpha4 {t : Word} (h : alpha4 t = true) :
    crit t = uppercase (byteOf t 0) ∧ pub t = uppercase (byteOf t 1) ∧ (!pub t) = lowercase (byteOf t 1) ∧
    res t = uppercase (byteOf t 2) ∧ safe t = lowercase (byteOf t 3) := by
  simp only [alpha4, Bool.and_eq_true] at h
  obtain ⟨⟨⟨h0, h1⟩, h2⟩, h3⟩ := h
  rw [← (bitFive_of_alphabetic h0).1, ← (bitFive_of_alphabetic h1).1, ← (bitFive_of_alphabetic h1).2,
    ← (bitFive_of_alphabetic h2).1, ← (bitFive_of_alphabetic h3).2]
  simp [crit, pub, res, safe, byteOf]

/-- With TYPE_OK = 1 the flags are the letters' case. -/
theorem Block.typeFlags_of_typeOk {b : Block} (h : b.Consistent) (hok : b.typeOk = true) :
    b.typeFlags = [true, uppercase (byteOf b.typeReg 0), uppercase (byteOf b.typeReg 1),
      uppercase (byteOf b.typeReg 2), lowercase (byteOf b.typeReg 3),
      if b.validSel then uppercase (byteOf b.typeReg 2)
        else lowercase (byteOf b.typeReg 1) && uppercase (byteOf b.typeReg 2)] := by
  obtain ⟨-, htype, -⟩ := h
  have halpha := htype hok
  obtain ⟨hcrit, hpub, hprivate, hres, hsafe⟩ := caseBits_of_alpha4 halpha
  rw [← hcrit, ← hpub, ← hprivate, ← hres, ← hsafe]
  simp [Block.typeFlags, hok, halpha, valid]

/-! ### The `irq` output (60_exceptions.md R109) -/

theorem Block.irq_eq_true_iff (b : Block) : b.irq = true ↔ b.irqEn = true ∧ b.errCode ≠ .none := by
  simp [Block.irq]

/-- While an error is recorded, `irq` follows the IRQ_EN bit of a CTRL write at once. -/
theorem Block.irq_writeCtrl {b : Block} (h : b.errCode ≠ .none) (v : Word) :
    (b.writeCtrl v).irq = v.getLsbD 1 := by
  simp [Block.irq, h]

/-- No command word but ERR.CLR's lowers `irq`. -/
theorem effectOfWord_irq {w : Word} {b : Block} (hw : w ≠ 0x00000020#32) (h : b.irq = true) :
    (effectOfWord w b).irq = true := by
  obtain ⟨hen, herr⟩ := b.irq_eq_true_iff.1 h
  rw [Block.irq_eq_true_iff]
  cases hd : decode w with
  | command i =>
    have hi : i ≠ .errClr := fun hi => hw ((decode_eq_errClr_iff w).1 (hi ▸ hd))
    obtain ⟨-, hkept, -⟩ := (commandOutcome i b).ctrl_data
    rw [effectOfWord_of_command hd, hkept, effectOf_errCode_of_error hi herr]
    exact ⟨hen, herr⟩
  | illegal why =>
    rw [effectOfWord_of_illegal hd]
    simp [hen, herr]

theorem effectOfWord_errClr (b : Block) : effectOfWord 0x00000020#32 b = b.clearError :=
  effectOfWord_of_command ((decode_eq_errClr_iff _).2 rfl) b

/-- The two accesses that acknowledge an error (60_exceptions.md R110). -/
theorem blockAfter_irq_eq_false_iff {b : Block} (h : b.irq = true) (r : Request) :
    (blockAfter r b).irq = false ↔
      r = commandWrite 0x00000020#32 ∨ ∃ v, r = ctrlWrite v ∧ v.getLsbD 1 = false := by
  obtain ⟨-, herr⟩ := b.irq_eq_true_iff.1 h
  constructor
  · intro hlow
    rcases admittedWrite_or_blockAfter_eq r with ⟨v, rfl⟩ | ⟨v, rfl⟩ | ⟨w, rfl⟩ | hkept
    · exact .inr ⟨v, rfl, (Block.irq_writeCtrl herr v).symm.trans hlow⟩
    · exact absurd (h.symm.trans hlow) (by decide)
    · by_cases hw : w = 0x00000020#32
      · exact .inl (congrArg commandWrite hw)
      · exact absurd ((effectOfWord_irq hw h).symm.trans hlow) (by decide)
    · rw [hkept, h] at hlow
      cases hlow
  · rintro (rfl | ⟨v, rfl, hv⟩)
    · rw [blockAfter_commandWrite, effectOfWord_errClr]
      simp [Block.irq]
    · rw [blockAfter_ctrlWrite, Block.irq_writeCtrl herr, hv]

end Sys2Proof.Machine

section

open Sys2Proof Sys2Proof.Machine

/-- Settles O39: a step is idle or delivers an event, and each operation on the block keeps the relations. -/
theorem consistentKeptByStep : Obligations.ConsistentKeptByStep := by
  intro s t h hstep
  rcases step_next_cases hstep with rfl | ⟨e, rest, -, -, hblock⟩
  · exact h
  · rw [hblock]
    exact h.blockAfterEvent e

/-- Settles O17: five reads in a row, answered by CRC_OUT and its bytes, which make up the word. -/
theorem outBeBytesFormCrcOut : Obligations.OutBeBytesFormCrcOut := by
  intro s rest
  have hrun := run_accesses [⟨0x18#6, .word, .read⟩, ⟨0x28#6, .byte, .read⟩, ⟨0x29#6, .byte, .read⟩,
    ⟨0x2A#6, .byte, .read⟩, ⟨0x2B#6, .byte, .read⟩] s rest
  exact ⟨s.block.crcOut, s.block.outBe 0, s.block.outBe 1, s.block.outBe 2, s.block.outBe 3, hrun, rfl, rfl, rfl, rfl,
    rfl, wordOfBytes_byteOf s.block.crcOut⟩

/-- Settles O38: of the three writes that change the block, DATA's changes no part of `irq`, a command word keeps it
high unless it is ERR.CLR's, and CTRL's gives IRQ_EN the written bit. -/
theorem irqFallsOnlyByAcknowledge : Obligations.IrqFallsOnlyByAcknowledge := by
  refine ⟨fun s t e rest hirq hstep => ?_, fun s v rest herr hv => ?_, fun b code hirq => ?_⟩
  · obtain ⟨hover, -, hblock⟩ := step_cons_next hstep
    rw [hblock]
    cases e with
    | access r =>
      simpa [blockAfterEvent, commandWrite, ctrlWrite, Reg.offset] using blockAfter_irq_eq_false_iff hirq r
    | reset => exact iff_of_true rfl (.inr (.inr rfl))
    | resetOverlapping r => exact absurd rfl (hover r)
  · obtain ⟨-, -, -, hbit, -⟩ := s.block.statusWord_flags
    have hcode : s.block.errCode ≠ .none := by simpa using hbit.symm.trans herr
    exact ⟨_, step_access s (ctrlWrite v) rest, (Block.irq_writeCtrl hcode v).trans hv⟩
  · obtain ⟨hen, herr⟩ := b.irq_eq_true_iff.1 hirq
    simp [Block.irq, hen, herr]

/-- Settles O44: with TYPE_OK = 0 the gated bits are 0; with TYPE_OK = 1 the relations give letters, whose case bits are
the flags. -/
theorem typeFlagsShowValidatedCode : Obligations.TypeFlagsShowValidatedCode := by
  intro b
  refine ⟨fun hok => ?_, fun h hok => ?_⟩
  · cases halpha : alpha4 b.typeReg <;> simp [Block.typeFlagsWord, hok, halpha]
  · have hbit := b.typeFlagsWord_getLsbD
    rw [Block.typeFlags_of_typeOk h hok] at hbit
    exact ⟨hbit 0, hbit 1, hbit 2, hbit 3, hbit 4, hbit 5, b.typeFlagsWord_reserved⟩

/-- Settles O45: of the bits of TYPE_FLAGS only VALID reads CTRL. -/
theorem validFollowsCtrlWrite : Obligations.ValidFollowsCtrlWrite := by
  intro s v rest
  refine ⟨_, step_access s (ctrlWrite v) rest, ?_, fun k hk => ?_⟩
  · rw [Block.typeFlagsWord_getLsbD]
    rfl
  · simp only [Block.typeFlagsWord_getLsbD]
    match k with
    | 0 | 1 | 2 | 3 | 4 => rfl
    | k + 6 => rfl

/-- Settles O11: the reset values of the map, register by register. -/
theorem resetReadValues : Obligations.ResetReadValues := by
  unfold Obligations.ResetReadValues
  decide

/-- Settles O13: CRC.INIT writes the values the reset gives. -/
theorem resetServesAsCrcInit : Obligations.ResetServesAsCrcInit :=
  ⟨fun s => ⟨_, exec_eq .crcInit s, rfl, rfl, rfl, rfl, rfl⟩, rfl, rfl, rfl, rfl, rfl, by decide⟩

/-- Settles O18: the write stores bits 1:0, and only they read back. -/
theorem ctrlWriteStoresTwoBits : Obligations.CtrlWriteStoresTwoBits := by
  intro s v rest
  refine ⟨step_access s (ctrlWrite v) rest, ?_⟩
  rw [← Block.ctrlWord_writeCtrl s.block v]
  exact (s.block.writeCtrl v).readWord?_offset .ctrl

/-- Settles O19: the write stores the word, and DATA reads it. -/
theorem dataWriteStoresWord : Obligations.DataWriteStoresWord := by
  intro s v rest
  exact ⟨step_access s (dataWrite v) rest, (s.block.writeData v).readWord?_offset .data⟩

/-- Settles O20: each field of the word, and the number of each code. -/
theorem statusWordFields : Obligations.StatusWordFields := by
  intro b
  obtain ⟨hmatch, hmismatch, htype, herr, hmulti, hout⟩ := b.statusWord_flags
  rw [b.statusWord_errCode]
  refine ⟨hmatch, hmismatch, htype, by rw [herr]; simp [Block.err], rfl, hmulti, hout, b.statusWord_reserved,
    b.errCode.bits_le_four, ?_, ?_, ?_, ?_, ?_⟩ <;> intro h <;> rw [h] <;> rfl

/-- Settles O40: the reset values meet the relations. -/
theorem consistentAtReset : Obligations.ConsistentAtReset := Block.Consistent.reset

end

/-! SUPPORT. The register window (20_memory.md): which bus addresses reach it, what a read answers and leaves as it was,
and that an access always completes. -/

namespace Sys2Proof.Machine

/-! ### The window on the bus (R33) -/

theorem pBase_mod_windowSize : Config.pBase % 0x40 = 0 := Nat.mul_mod_right 0x40 Config.windowIndex

/-- A request reaches the block exactly from the bus address at its offset from P_BASE. -/
theorem routeAccess_eq_some_iff (a : Nat) (size : Size) (dir : Dir) (r : Request) :
    routeAccess a size dir = some r ↔ Config.pBase + r.addr.toNat = a ∧ r.size = size ∧ r.dir = dir := by
  obtain ⟨offset, rsize, rdir⟩ := r
  have hlt := offset.isLt
  unfold routeAccess
  constructor
  · intro h
    split at h
    case isTrue hin =>
      cases h
      rw [BitVec.toNat_ofNat, Nat.mod_eq_of_lt (by omega)]
      exact ⟨by omega, rfl, rfl⟩
    case isFalse => cases h
  · rintro ⟨rfl, rfl, rfl⟩
    rw [if_pos (by omega), Nat.add_sub_cancel_left, BitVec.ofNat_toNat, BitVec.setWidth_eq]

/-- The addresses that reach the block are the 0x40 of the window. -/
theorem routeAccess_isSome_iff (a : Nat) (size : Size) (dir : Dir) :
    (routeAccess a size dir).isSome ↔ Config.pBase ≤ a ∧ a ≤ Config.pBase + 0x3F := by
  rw [Option.isSome_iff_exists]
  constructor
  · rintro ⟨r, h⟩
    obtain ⟨haddr, -, -⟩ := (routeAccess_eq_some_iff a size dir r).1 h
    have hlt := r.addr.isLt
    omega
  · rintro ⟨hlow, hhigh⟩
    refine ⟨⟨BitVec.ofNat 6 (a - Config.pBase), size, dir⟩, (routeAccess_eq_some_iff ..).2 ⟨?_, rfl, rfl⟩⟩
    rw [BitVec.toNat_ofNat, Nat.mod_eq_of_lt (by omega)]
    omega

/-! ### Reads (R36, R39) -/

/-- A read has no side effect on the block. -/
theorem blockAfter_of_read {r : Request} (h : r.dir = .read) (b : Block) : blockAfter r b = b := by
  simp [blockAfter, h]

/-- A 4-byte read at a register's offset is answered by what the register reads as. -/
@[simp] theorem answerOf_wordRead (reg : Reg) (b : Block) :
    answerOf ⟨reg.offset, .word, .read⟩ b = .word (b.readReg reg) := by
  simp [answerOf]

/-- A step that delivers a 4-byte read at a register's offset. -/
theorem step_wordRead (s : State) (reg : Reg) (rest : List Event) :
    step { s with pending := .access ⟨reg.offset, .word, .read⟩ :: rest } =
      .next { block := s.block
              pending := rest
              completed := s.completed ++ [⟨⟨reg.offset, .word, .read⟩, .word (s.block.readReg reg)⟩] } := by
  rw [step_access, blockAfter_of_read rfl, answerOf_wordRead]

/-! ### Steps that complete (R38) -/

/-- Every event but an overlapping reset is taken off the list in a next state. -/
theorem performEvent_completes {e : Event} (h : ∀ r, e ≠ .resetOverlapping r) (s : State) :
    ∃ t, performEvent e s = .next t ∧ t.pending = s.pending := by
  cases e with
  | access r => exact ⟨_, performAccess_eq r s, rfl⟩
  | reset => exact ⟨_, rfl, rfl⟩
  | resetOverlapping r => exact absurd rfl (h r)

end Sys2Proof.Machine

section

open Sys2Proof Sys2Proof.Machine

/-- Settles O16: neither of the two reads changes the block, so both are answered from the same one. -/
theorem readsAreIdempotent : Obligations.ReadsAreIdempotent := by
  intro s r rest hread
  have hrun := run_accesses [r, r] s rest
  simp only [blockAfterAll_cons, blockAfterAll_nil, answersOfAll, blockAfter_of_read hread] at hrun
  exact ⟨answerOf r s.block, hrun⟩

/-- Settles O34: a pending event is performed to a next state, and with none pending the step is idle. -/
theorem stepNeverStops : Obligations.StepNeverStops :=
  ⟨fun s _ rest h => performEvent_completes h { s with pending := rest }, fun s h => ⟨s, step_idle s h, h⟩⟩

/-- Settles O15: each of the ten offsets is a register's, and the value is what that register reads as. -/
theorem wordReadsAnswerRegisters : Obligations.WordReadsAnswerRegisters := by
  intro s rest a v hmem
  have hreg : ∃ reg : Reg, a = reg.offset ∧ v = s.block.readReg reg := by
    simp only [List.mem_cons, List.not_mem_nil, or_false, Prod.mk.injEq] at hmem
    rcases hmem with h | h | h | h | h | h | h | h | h | h
    exacts [⟨.id, h⟩, ⟨.ctrl, h⟩, ⟨.status, h⟩, ⟨.data, h⟩, ⟨.cmd, h⟩, ⟨.crcState, h⟩, ⟨.crcOut, h⟩, ⟨.byteCount, h⟩,
      ⟨.typeCode, h⟩, ⟨.typeFlags, h⟩]
  obtain ⟨reg, rfl, rfl⟩ := hreg
  exact step_wordRead s reg rest

/-- Settles O21: the window starts at a multiple of its size, and each of its addresses reaches the block as its
offset. -/
theorem windowRouting : Obligations.WindowRouting :=
  ⟨pBase_mod_windowSize, fun a size dir =>
    ⟨routeAccess_isSome_iff a size dir, fun r => (routeAccess_eq_some_iff a size dir r).1⟩⟩

end

/-! SUPPORT. The command words (30_encoding.md): a row of the opcode map accepts a word exactly when OP is the row's and
its reserved bits are 0, so at most one row accepts it; `decode` answers the command of that row with the word's
operands, and `encode` puts the operands back where the row's mask is 0. -/

namespace Sys2Proof

/-! ### A word in parts -/

/-- Bits 31:16, bits 15:8 and OP make up a word. -/
theorem word_ext {w w' : Word} (hhigh : w.extractLsb' 16 16 = w'.extractLsb' 16 16)
    (hmiddle : w.extractLsb' 8 8 = w'.extractLsb' 8 8) (hop : opcodeField w = opcodeField w') : w = w' := by
  have hparts (v : Word) : v.extractLsb' 16 16 ++ v.extractLsb' 8 8 ++ opcodeField v = v := by
    rw [opcodeField, BitVec.extractLsb'_append_extractLsb'_eq_extractLsb' (start₂ := 16) (len₁ := 8) rfl,
      BitVec.extractLsb'_append_extractLsb'_eq_extractLsb' (start₂ := 8) (len₁ := 8) rfl, BitVec.extractLsb'_eq_self]
  rw [← hparts w, ← hparts w', hhigh, hmiddle, hop]

/-- A field taken out and put back in its place is the word under the field's mask. -/
theorem setWidth_extractLsb'_shiftLeft {n : Nat} (w : BitVec n) (start len : Nat) :
    (w.extractLsb' start len).setWidth n <<< start = w &&& (BitVec.allOnes len).setWidth n <<< start := by
  apply BitVec.eq_of_getLsbD_eq
  intro k hk
  by_cases h : k < start
  · simp [h]
  · simp [h, hk, Nat.add_sub_cancel' (Nat.le_of_not_lt h), Bool.and_comm]

/-- A field of a field is a field of the word. -/
theorem extractLsb'_extractLsb' {n : Nat} (w : BitVec n) {start len start' len' : Nat} (h : start' + len' ≤ len) :
    (w.extractLsb' start len).extractLsb' start' len' = w.extractLsb' (start + start') len' := by
  apply BitVec.eq_of_getLsbD_eq
  intro k hk
  have hin : start' + k < len := by omega
  simp [hin, Nat.add_assoc]

theorem and_or_and_not {n : Nat} (w mask : BitVec n) : (w &&& mask) ||| (w &&& ~~~mask) = w := by
  rw [← BitVec.and_or_distrib_left, BitVec.or_not_self, BitVec.and_allOnes]

/-! ### The rows of the opcode map (R57) -/

/-- Every row fixes OP and bits 31:16, and what it fixes outside OP is 0. -/
theorem opcodeRows_parts : ∀ r ∈ opcodeRows,
    (r.mask.extractLsb' 16 16 = BitVec.allOnes 16 ∧ opcodeField r.mask = BitVec.allOnes 8) ∧
    r.pattern.extractLsb' 16 16 = 0#16 ∧ r.pattern.extractLsb' 8 8 = 0#8 := by decide

theorem Row.accepts_iff (r : Row) (w : Word) : r.accepts w = true ↔ w &&& r.mask = r.pattern := by
  simp [Row.accepts]

/-- A row accepts a word exactly when the word has the row's OP and a 0 in every reserved bit. -/
theorem Row.accepts_iff_fields {r : Row} (hr : r ∈ opcodeRows) (w : Word) :
    r.accepts w = true ↔ opcodeField w = opcodeField r.pattern ∧
      w.extractLsb' 16 16 = 0#16 ∧ w.extractLsb' 8 8 &&& r.mask.extractLsb' 8 8 = 0#8 := by
  obtain ⟨⟨hmaskHigh, hmaskOp⟩, hhigh, hmiddle⟩ := opcodeRows_parts r hr
  have hop : opcodeField (w &&& r.mask) = opcodeField w := by
    rw [opcodeField, BitVec.extractLsb'_and, ← opcodeField, ← opcodeField, hmaskOp, BitVec.and_allOnes]
  have hhigh' : (w &&& r.mask).extractLsb' 16 16 = w.extractLsb' 16 16 := by
    rw [BitVec.extractLsb'_and, hmaskHigh, BitVec.and_allOnes]
  rw [Row.accepts_iff, ← hop, ← hhigh', ← BitVec.extractLsb'_and]
  constructor
  · intro h
    rw [h]
    exact ⟨rfl, hhigh, hmiddle⟩
  · rintro ⟨h0, h16, h8⟩
    exact word_ext (h16.trans hhigh.symm) (h8.trans hmiddle.symm) h0

/-- The eight values of OP are different. -/
theorem Row.eq_of_opcodeField_eq : ∀ r ∈ opcodeRows, ∀ r' ∈ opcodeRows,
    opcodeField r.pattern = opcodeField r'.pattern → r = r' := by decide

theorem Row.eq_of_accepts {r r' : Row} {w : Word} (hr : r ∈ opcodeRows) (hr' : r' ∈ opcodeRows)
    (h : r.accepts w = true) (h' : r'.accepts w = true) : r = r' := by
  obtain ⟨hop, -⟩ := (Row.accepts_iff_fields hr w).1 h
  obtain ⟨hop', -⟩ := (Row.accepts_iff_fields hr' w).1 h'
  exact Row.eq_of_opcodeField_eq r hr r' hr' (hop.symm.trans hop')

theorem Instr.row_mem_opcodeRows (i : Instr) : i.row ∈ opcodeRows := by
  cases i <;> simp [Instr.row, opcodeRows]

/-- The reserved bits of 15:8 under the rows' masks: all of them without fields, else 15:10, 15:9 and 11:9. -/
theorem middle_and_eq_zero_iff (w : Word) :
    (w.extractLsb' 8 8 &&& 0xFF#8 = 0#8 ↔ w.extractLsb' 8 8 = 0#8) ∧
    (w.extractLsb' 8 8 &&& 0xFC#8 = 0#8 ↔ w.extractLsb' 10 6 = 0#6) ∧
    (w.extractLsb' 8 8 &&& 0xFE#8 = 0#8 ↔ w.extractLsb' 9 7 = 0#7) ∧
    (w.extractLsb' 8 8 &&& 0x0E#8 = 0#8 ↔ w.extractLsb' 9 3 = 0#3) := by
  rw [← extractLsb'_extractLsb' (start := 8) (len := 8) (start' := 2) w (by decide),
    ← extractLsb'_extractLsb' (start := 8) (len := 8) (start' := 1) (len' := 7) w (by decide),
    ← extractLsb'_extractLsb' (start := 8) (len := 8) (start' := 1) (len' := 3) w (by decide)]
  generalize w.extractLsb' 8 8 = middle
  revert middle
  decide

/-! ### What `decode` answers (R62 to R64) -/

/-- The command of the row of `i` with the operands that stand in `w` (R59, R60). -/
def Instr.withOperands (i : Instr) (w : Word) : Instr :=
  match i with
  | .crcFeed _ => .crcFeed (feedCount (countField w))
  | .typeLoad _ => .typeLoad (absorbField w)
  | .typeText _ _ => .typeText (lengthField w) (absorbField w)
  | .nop => .nop
  | .crcInit => .crcInit
  | .crcFinal => .crcFinal
  | .crcVerify => .crcVerify
  | .errClr => .errClr

/-- The order of `decode`'s tests does not matter: the row that accepts a word gives its command. -/
theorem decode_of_accepts {i : Instr} {w : Word} (h : i.row.accepts w = true) :
    decode w = .command (i.withOperands w) := by
  have hrow : ∀ r ∈ opcodeRows, r.accepts w = decide (r = i.row) := fun r hr => by
    rw [Bool.eq_iff_iff, decide_eq_true_iff]
    exact ⟨fun h' => Row.eq_of_accepts hr i.row_mem_opcodeRows h' h, fun hri => hri ▸ h⟩
  simp only [opcodeRows, List.forall_mem_cons] at hrow
  obtain ⟨hnop, hinit, hfeed, hfinal, hverify, hload, htext, hclr, -⟩ := hrow
  rw [decode, hnop, hinit, hfeed, hfinal, hverify, hload, htext, hclr]
  cases i <;> rfl

theorem accepts_of_decode {i : Instr} {w : Word} (h : decode w = .command i) :
    i.row.accepts w = true ∧ i.withOperands w = i := by
  unfold decode at h
  split_ifs at h <;> cases h <;> exact ⟨‹_›, rfl⟩

theorem decode_eq_illegal_iff (w : Word) (why : Illegal) :
    decode w = .illegal why ↔ (∀ r ∈ opcodeRows, r.accepts w = false) ∧ whyIllegal w = why := by
  unfold decode
  split_ifs <;> simp_all [opcodeRows]

/-- With the OP of a row, the row alone decides: a word is Illegal exactly when it has a 1 where the row's mask covers
bits 31:8. -/
theorem decode_eq_reservedBit_iff {r : Row} (hr : r ∈ opcodeRows) {w : Word}
    (hop : opcodeField w = opcodeField r.pattern) :
    decode w = .illegal .reservedBit ↔
      ¬ (w.extractLsb' 16 16 = 0#16 ∧ w.extractLsb' 8 8 &&& r.mask.extractLsb' 8 8 = 0#8) := by
  have hassigned : opcodeField w ∈ assignedOpcodes := List.mem_map.2 ⟨r, hr, hop.symm⟩
  have haccepts := Row.accepts_iff_fields hr w
  rw [and_iff_right hop] at haccepts
  rw [decode_eq_illegal_iff, ← haccepts, whyIllegal, if_pos hassigned, and_iff_left rfl, Bool.not_eq_true]
  constructor
  · exact fun h => h r hr
  · intro h r' hr'
    by_contra h'
    rw [Bool.not_eq_false] at h'
    obtain ⟨hop', -⟩ := (Row.accepts_iff_fields hr' w).1 h'
    obtain rfl := Row.eq_of_opcodeField_eq r hr r' hr' (hop.symm.trans hop')
    exact absurd (h.symm.trans h') (by decide)

/-- A word whose OP is no row's is Illegal for that reason. -/
theorem decode_of_unassigned {w : Word} (h : opcodeField w ∉ assignedOpcodes) :
    decode w = .illegal (.unassignedOpcode (opcodeField w)) := by
  refine (decode_eq_illegal_iff w _).2 ⟨fun r hr => ?_, by rw [whyIllegal, if_neg h]⟩
  by_contra haccepts
  obtain ⟨hop, -⟩ := (Row.accepts_iff_fields hr w).1 (by simpa using haccepts)
  exact h (List.mem_map.2 ⟨r, hr, hop.symm⟩)

/-! ### Operands and their places in the word (R59, R60) -/

theorem encode_crcFeed_feedCount (n1 : BitVec 2) :
    encode (.crcFeed (feedCount n1)) = 0x00000002#32 ||| (n1.setWidth 32 <<< 8) := by
  revert n1
  decide

@[simp] theorem absorbBit_false : absorbBit false = 0#32 := by decide

@[simp] theorem absorbBit_true : absorbBit true = 0x00000100#32 := by decide

theorem absorbBit_absorbField (w : Word) : absorbBit (absorbField w) = (w.extractLsb' 8 1).setWidth 32 <<< 8 := by
  rw [absorbBit, absorbField, BitVec.getLsbD_eq_extractLsb']
  generalize w.extractLsb' 8 1 = a
  revert a
  decide

/-- A count read from a word is 1 to 4. -/
theorem wellFormed_withOperands (i : Instr) (w : Word) : (i.withOperands w).wellFormed = true := by
  cases i with
  | crcFeed n =>
    show (Instr.crcFeed (feedCount (countField w))).wellFormed = true
    generalize countField w = n1
    revert n1
    decide
  | _ => rfl

/-- The word of a well-formed command holds its operands. -/
theorem withOperands_encode {i : Instr} (h : i.wellFormed = true) : i.withOperands (encode i) = i := by
  cases i with
  | crcFeed n => revert n; decide
  | typeLoad a => revert a; decide
  | typeText len a => clear h; revert len a; decide
  | _ => rfl

/-- The bits that the masks of the rows with operands leave free are the operands' places. -/
theorem not_mask_of_operands :
    ~~~rowCrcFeed.mask = (BitVec.allOnes 2).setWidth 32 <<< 8 ∧
    ~~~rowTypeLoad.mask = (BitVec.allOnes 1).setWidth 32 <<< 8 ∧
    ~~~rowTypeText.mask = (BitVec.allOnes 4).setWidth 32 <<< 12 ||| (BitVec.allOnes 1).setWidth 32 <<< 8 := by decide

/-- The word of a command with the operands of `w`: the row's fixed bits, and the bits of `w` its mask leaves free. -/
theorem encode_withOperands (i : Instr) (w : Word) :
    encode (i.withOperands w) = i.row.pattern ||| (w &&& ~~~i.row.mask) := by
  obtain ⟨hfeed, hload, htext⟩ := not_mask_of_operands
  cases i with
  | crcFeed n =>
    show encode (.crcFeed (feedCount (countField w))) = rowCrcFeed.pattern ||| (w &&& ~~~rowCrcFeed.mask)
    rw [encode_crcFeed_feedCount, countField, setWidth_extractLsb'_shiftLeft, hfeed]
    rfl
  | typeLoad a =>
    show 0x00000010#32 ||| absorbBit (absorbField w) = rowTypeLoad.pattern ||| (w &&& ~~~rowTypeLoad.mask)
    rw [absorbBit_absorbField, setWidth_extractLsb'_shiftLeft, hload]
    rfl
  | typeText len a =>
    show 0x00000011#32 ||| ((w.extractLsb' 12 4).setWidth 32 <<< 12) ||| absorbBit (absorbField w) =
      rowTypeText.pattern ||| (w &&& ~~~rowTypeText.mask)
    rw [absorbBit_absorbField, setWidth_extractLsb'_shiftLeft, setWidth_extractLsb'_shiftLeft, BitVec.or_assoc,
      ← BitVec.and_or_distrib_left, htext]
    rfl
  | _ => simp [Instr.withOperands, encode, Instr.row, rowNop, rowCrcInit, rowCrcFinal, rowCrcVerify, rowErrClr]

/-! ### The round trips -/

theorem row_accepts_encode {i : Instr} (h : i.wellFormed = true) : i.row.accepts (encode i) = true := by
  have hpattern : Laws.RowPattern.Statement i := by
    cases i with
    | nop => exact Laws.RowPattern.nop
    | crcInit => exact Laws.RowPattern.crcInit
    | crcFeed n => exact Laws.RowPattern.crcFeed n
    | crcFinal => exact Laws.RowPattern.crcFinal
    | crcVerify => exact Laws.RowPattern.crcVerify
    | typeLoad a => exact Laws.RowPattern.typeLoad a
    | typeText len a => exact Laws.RowPattern.typeText len a
    | errClr => exact Laws.RowPattern.errClr
  obtain ⟨haccepts, -⟩ := hpattern h
  exact haccepts

theorem decode_encode {i : Instr} (h : i.wellFormed = true) : decode (encode i) = .command i := by
  rw [decode_of_accepts (row_accepts_encode h), withOperands_encode h]

theorem encode_of_decode {w : Word} {i : Instr} (h : decode w = .command i) :
    i.wellFormed = true ∧ encode i = w := by
  obtain ⟨haccepts, hoperands⟩ := accepts_of_decode h
  rw [← hoperands]
  refine ⟨wellFormed_withOperands i w, ?_⟩
  rw [encode_withOperands, ← (Row.accepts_iff _ w).1 haccepts, and_or_and_not]

end Sys2Proof

namespace Sys2Proof.Machine

/-! ### The accesses of a statement (R66, R67) -/

@[simp] theorem commandWrite_admitted (w : Word) : (commandWrite w).admitted = true := rfl

@[simp] theorem dataWrite_admitted (v : Word) : (dataWrite v).admitted = true := rfl

/-- Every register can be read as a word. -/
theorem wordRead_admitted (reg : Reg) : Request.admitted ⟨reg.offset, .word, .read⟩ = true := by
  cases reg <;> rfl

theorem wordWrite_admitted {reg : Reg} (h : reg.writable = true) (v : Word) :
    Request.admitted ⟨reg.offset, .word, .write v⟩ = true := by
  cases reg with
  | ctrl | data | cmd => rfl
  | _ => cases h

/-- The four bytes of OUT_BE can be read. -/
theorem outBeRead_admitted {k : Nat} (h : k ≤ 3) :
    Request.admitted ⟨0x28#6 + BitVec.ofNat 6 k, .byte, .read⟩ = true := by
  interval_cases k <;> rfl

theorem admitted_of_mem_expand {st : Stmt} (h : st.wellFormed = true) {r : Request} (hr : r ∈ st.expand) :
    r.admitted = true := by
  cases st with
  | wr reg imm =>
    obtain ⟨hreg, -⟩ := Bool.and_eq_true_iff.1 h
    obtain rfl := List.mem_singleton.1 hr
    exact wordWrite_admitted hreg imm.value
  | rd reg =>
    obtain rfl := List.mem_singleton.1 hr
    exact wordRead_admitted reg
  | rdb k =>
    obtain rfl := List.mem_singleton.1 hr
    exact outBeRead_admitted (of_decide_eq_true h)
  | command i =>
    obtain rfl := List.mem_singleton.1 hr
    rfl
  | feedw | feedb | chunktype | expect => obtain rfl | rfl := List.mem_pair.1 hr <;> rfl

/-! ### String immediates (R66) -/

/-- Characters that a string lacks are bytes of 0x00 at the end of its word. -/
theorem wordOfBytes_padded (c0 c1 : Byte) :
    wordOfBytes c0 c1 0x00#8 0x00#8 = c0 ++ c1 ++ 0x0000#16 ∧
    wordOfBytes c0 0x00#8 0x00#8 0x00#8 = c0 ++ 0x000000#24 := by
  have htwo : 0x00#8 ++ 0x00#8 = 0x0000#16 := rfl
  have hthree : 0x0000#16 ++ 0x00#8 = 0x000000#24 := rfl
  simp only [wordOfBytes, BitVec.append_assoc, BitVec.cast_eq, htwo, hthree, and_self]

end Sys2Proof.Machine

section

open Sys2Proof Sys2Proof.Machine

/-- Settles O2: the row of the command accepts its word, and the word holds the operands. -/
theorem decodeOfEncode : Obligations.DecodeOfEncode := fun _ => decode_encode

/-- Settles O3: the word is the fixed bits of its row and the operands in the bits the row leaves free. -/
theorem encodeOfDecode : Obligations.EncodeOfDecode := fun _ _ => encode_of_decode

/-- Settles O4: rows that accept the same word have the same OP. -/
theorem atMostOneRowAccepts : Obligations.AtMostOneRowAccepts :=
  fun _ _ _ hr hr' h h' => Row.eq_of_accepts hr hr' h h'

/-- Settles O5: the OP selects the row, and the row's mask the reserved bits of 15:8. -/
theorem reservedBitMakesIllegal : Obligations.ReservedBitMakesIllegal := by
  refine ⟨fun w hop => ?_, by decide, by decide, by decide⟩
  obtain ⟨hplain, hfeed, hload, htext⟩ := middle_and_eq_zero_iff w
  obtain ⟨r, hr, hop⟩ := List.mem_map.1 (show opcodeField w ∈ assignedOpcodes from hop)
  rw [decode_eq_reservedBit_iff hr hop.symm, ← hop]
  refine not_congr (and_congr_right fun _ => ?_)
  simp only [opcodeRows, List.mem_cons, List.not_mem_nil, or_false] at hr
  rcases hr with rfl | rfl | rfl | rfl | rfl | rfl | rfl | rfl
  · simp [rowNop, opcodeField, hplain]
  · simp [rowCrcInit, opcodeField, hplain]
  · simp [rowCrcFeed, opcodeField, hfeed]
  · simp [rowCrcFinal, opcodeField, hplain]
  · simp [rowCrcVerify, opcodeField, hplain]
  · simp [rowTypeLoad, opcodeField, hload]
  · simp [rowTypeText, opcodeField, htext]
  · simp [rowErrClr, opcodeField, hplain]

/-- Settles O6: no row has the OP, so none accepts the word. -/
theorem unassignedOpcodeRecordsIllegalCmd : Obligations.UnassignedOpcodeRecordsIllegalCmd := by
  intro w hop
  have hdecode := decode_of_unassigned (w := w) hop
  exact ⟨hdecode, fun s => by rw [performCommand_eq, effectOfWord_of_illegal hdecode]⟩

/-- Settles O22: row by row of the two tables. -/
theorem statementsExpandToAdmittedAccesses : Obligations.StatementsExpandToAdmittedAccesses := by
  refine ⟨fun st h r hr => admitted_of_mem_expand h hr, fun imm => ⟨rfl, rfl, rfl⟩, fun reg a hmem => ?_,
    fun k a hmem => ?_, fun i w hmem => ?_, fun n1 => ?_, fun len => ?_, fun n1 imm => ?_, fun v => rfl,
    fun c0 c1 c2 c3 => ?_, by decide, by decide⟩
  · simp only [List.mem_cons, List.not_mem_nil, or_false, Prod.mk.injEq] at hmem
    rcases hmem with ⟨rfl, rfl⟩ | ⟨rfl, rfl⟩ | ⟨rfl, rfl⟩ | ⟨rfl, rfl⟩ | ⟨rfl, rfl⟩ | ⟨rfl, rfl⟩ | ⟨rfl, rfl⟩ |
      ⟨rfl, rfl⟩ | ⟨rfl, rfl⟩ | ⟨rfl, rfl⟩ <;> rfl
  · simp only [List.mem_cons, List.not_mem_nil, or_false, Prod.mk.injEq] at hmem
    rcases hmem with ⟨rfl, rfl⟩ | ⟨rfl, rfl⟩ | ⟨rfl, rfl⟩ | ⟨rfl, rfl⟩ <;> rfl
  · simp only [List.mem_cons, List.not_mem_nil, or_false, Prod.mk.injEq] at hmem
    rcases hmem with ⟨rfl, rfl⟩ | ⟨rfl, rfl⟩ | ⟨rfl, rfl⟩ | ⟨rfl, rfl⟩ | ⟨rfl, rfl⟩ | ⟨rfl, rfl⟩ | ⟨rfl, rfl⟩ <;> rfl
  · rw [← encode_crcFeed_feedCount]
    rfl
  · simp [Stmt.expand, commandWrite, Reg.offset, encode]
  · rw [← encode_crcFeed_feedCount]
    exact ⟨rfl, rfl, rfl, rfl⟩
  · obtain ⟨htwo, hone⟩ := wordOfBytes_padded c0 c1
    exact ⟨rfl, rfl, htwo, hone⟩

/-- Settles O1: each word is the one `encode` gives. -/
theorem commandWordsDecode : Obligations.CommandWordsDecode :=
  ⟨decode_encode (i := .nop) rfl, decode_encode (i := .crcInit) rfl, decode_encode (i := .crcFeed 3#3) rfl,
    decode_encode (i := .crcFinal) rfl, decode_encode (i := .crcVerify) rfl, decode_encode (i := .typeLoad true) rfl,
    decode_encode (i := .typeText 7#4 true) rfl, decode_encode (i := .errClr) rfl⟩

/-- Settles O7: the step performs the write, which is answered OKAY. -/
theorem stepPerformsWrittenCommand : Obligations.StepPerformsWrittenCommand := by
  intro s w rest
  have hstep := step_access s (commandWrite w) rest
  refine ⟨fun i hdecode => ?_, fun why hdecode => ?_⟩
  · rw [blockAfter_commandWrite, effectOfWord_of_command hdecode] at hstep
    rw [exec_eq]
    exact hstep
  · rw [blockAfter_commandWrite, effectOfWord_of_illegal hdecode] at hstep
    exact hstep

end

/-! SUPPORT. The type code (40_typecode.md): which events write TYPE and TYPE_OK, and its four bytes. Then the chunk
sequences (41_crc.md R89, R90): what each absorbing statement makes of the block, so what the type code and the payload
leave in CRC_STATE and in the error record. -/

namespace Sys2Proof.Machine

/-! ### What writes TYPE and TYPE_OK (R74 to R76) -/

/-- The two commands that check a type code. -/
def IsTypeCommand (i : Instr) : Prop := (∃ a, i = .typeLoad a) ∨ ∃ len a, i = .typeText len a

/-- A command keeps TYPE and TYPE_OK, or it is a type command: DATA goes to TYPE, and TYPE_OK is 1 only if DATA is
alphabetic. -/
theorem effectOf_type_cases (i : Instr) (b : Block) :
    ((effectOf i b).typeReg = b.typeReg ∧ (effectOf i b).typeOk = b.typeOk) ∨
    (IsTypeCommand i ∧
      (effectOf i b).typeReg = b.data ∧ ((effectOf i b).typeOk = true → alpha4 b.data = true)) := by
  cases i with
  | nop | crcInit | crcFeed | crcFinal | errClr => exact .inl ⟨rfl, rfl⟩
  | crcVerify =>
    simp only [effectOf]
    split <;> exact .inl ⟨rfl, rfl⟩
  | typeLoad a => exact .inr ⟨.inl ⟨a, rfl⟩, by simp [effectOf, Block.loadType_eq]⟩
  | typeText len a =>
    refine .inr ⟨.inr ⟨len, a, rfl⟩, ?_⟩
    simp only [effectOf]
    split
    · simp [Block.loadType_eq]
    · exact ⟨rfl, nofun⟩

/-- The same of an event: TYPE and TYPE_OK are kept, or the event is a reset, or a CMD write of a type command. -/
theorem blockAfterEvent_type_cases (e : Event) (b : Block) :
    ((blockAfterEvent e b).typeReg = b.typeReg ∧ (blockAfterEvent e b).typeOk = b.typeOk) ∨
    e = .reset ∨
    (∃ w i, e = .access (commandWrite w) ∧ decode w = .command i ∧ IsTypeCommand i) ∧
      (blockAfterEvent e b).typeReg = b.data ∧ ((blockAfterEvent e b).typeOk = true → alpha4 b.data = true) := by
  cases e with
  | reset => exact .inr (.inl rfl)
  | resetOverlapping r => exact .inl ⟨rfl, rfl⟩
  | access r =>
    rcases admittedWrite_or_blockAfter_eq r with ⟨v, rfl⟩ | ⟨v, rfl⟩ | ⟨w, rfl⟩ | hkept
    · exact .inl ⟨rfl, rfl⟩
    · exact .inl ⟨rfl, rfl⟩
    · simp only [blockAfterEvent, blockAfter_commandWrite]
      cases hw : decode w with
      | illegal why =>
        rw [effectOfWord_of_illegal hw]
        exact .inl ⟨rfl, rfl⟩
      | command i =>
        rw [effectOfWord_of_command hw]
        exact (effectOf_type_cases i b).imp_right fun ⟨htype, hwritten⟩ =>
          .inr ⟨⟨w, i, rfl, hw, htype⟩, hwritten⟩
    · simp [blockAfterEvent, hkept]

/-! ### The four bytes of TYPE (R68, R77) -/

/-- A word is its four bytes. -/
theorem bytesOf_injective {w w' : Word} (h : bytesOf w = bytesOf w') : w = w' := by
  simp only [bytesOf, List.cons.injEq, and_true] at h
  obtain ⟨h0, h1, h2, h3⟩ := h
  rw [← wordOfBytes_byteOf w, ← wordOfBytes_byteOf w', h0, h1, h2, h3]

theorem alpha4_iff_forall_mem (t : Word) : alpha4 t = true ↔ ∀ c ∈ bytesOf t, alphabetic c = true := by
  simp [alpha4, bytesOf, and_assoc]

/-- The text form is the bytes of TYPE, of a validated code only. -/
theorem Block.textForm?_eq_some_iff (b : Block) (l : List Byte) :
    b.textForm? = some l ↔ b.typeOk = true ∧ l = bytesOf b.typeReg := by
  cases hok : b.typeOk <;> simp [Block.textForm?, hok, @eq_comm _ l]

theorem alpha4_RuSt : alpha4 0x52755374#32 = true := by decide

/-- "RuSt" once validated, with VALID = 1 under either VALID_SEL. -/
theorem typeFlagsWord_of_RuSt {b : Block} (htype : b.typeReg = 0x52755374#32) (hok : b.typeOk = true) :
    b.typeFlagsWord = 0x0000003B#32 := by
  simp only [Block.typeFlagsWord, htype, hok]
  generalize b.validSel = validSel
  revert validSel
  decide

/-! ### CRC.VERIFY (41_crc.md R87) -/

/-- The verdict is whether DATA is the checksum. -/
theorem effectOf_crcVerify_verdict (b : Block) :
    (effectOf .crcVerify b).crcMatch = decide (b.data = finalValue b.crcState) ∧
    (effectOf .crcVerify b).crcMismatch = !decide (b.data = finalValue b.crcState) := by
  by_cases h : b.data = finalValue b.crcState
  · simp [effectOf, h]
  · simp [effectOf, h, Ne.symm h]

/-- A mismatch, and nothing else, is recorded. -/
theorem effectOf_crcVerify_errorRecord (b : Block) :
    (effectOf .crcVerify b).errCode =
      (if b.data ≠ finalValue b.crcState ∧ b.errCode = .none then .checksumMismatch else b.errCode) ∧
    (effectOf .crcVerify b).multiErr =
      (if b.data ≠ finalValue b.crcState ∧ b.errCode ≠ .none then true else b.multiErr) := by
  by_cases h : b.data = finalValue b.crcState
  · simp [effectOf, h]
  · by_cases hnone : b.errCode = .none
    · simp [effectOf, h, Ne.symm h, hnone]
    · simp [effectOf, h, Ne.symm h, hnone]

/-! ### Absorbing statements (41_crc.md R82) -/

/-- A CMD write of a command's own word has the command's effect. -/
theorem effectOfWord_encode {i : Instr} (h : i.wellFormed = true) (b : Block) :
    effectOfWord (encode i) b = effectOf i b :=
  effectOfWord_of_command (decode_encode h) b

/-- What an absorbing statement makes of the block (`blockAfterAll_stmts`). -/
def Absorbing.effect (a : Absorbing) (b : Block) : Block :=
  match a with
  | .feed n1 w => (b.writeData w).absorb w (n1.toNat + 1)
  | .load w => (b.writeData w).loadType true
  | .text w => (b.writeData w).loadType true

theorem blockAfterAll_stmts (a : Absorbing) (b : Block) :
    blockAfterAll (a.stmts.flatMap Stmt.expand) b = a.effect b := by
  cases a with
  | feed n1 w =>
    show effectOfWord (encode (.crcFeed (feedCount n1))) (b.writeData w) = _
    rw [effectOfWord_encode (feedCount_wellFormed n1)]
    simp [effectOf, Absorbing.effect]
  | load w => exact effectOfWord_encode (i := .typeLoad true) rfl (b.writeData w)
  | text w => exact effectOfWord_encode (i := .typeText 4#4 true) rfl (b.writeData w)

/-- What a series of absorbing statements makes of the block. -/
def absorbAll (l : List Absorbing) (b : Block) : Block := l.foldl (fun b a => a.effect b) b

@[simp] theorem absorbAll_nil (b : Block) : absorbAll [] b = b := rfl

@[simp] theorem absorbAll_cons (a : Absorbing) (l : List Absorbing) (b : Block) :
    absorbAll (a :: l) b = absorbAll l (a.effect b) := rfl

theorem blockAfterAll_flatMap_stmts (l : List Absorbing) (b : Block) :
    blockAfterAll ((l.flatMap Absorbing.stmts).flatMap Stmt.expand) b = absorbAll l b := by
  induction l generalizing b with
  | nil => rfl
  | cons a l ih =>
    rw [List.flatMap_cons, List.flatMap_append, blockAfterAll_append, blockAfterAll_stmts, ih, absorbAll_cons]

/-- A new message and its statements, through the accesses they expand to. -/
theorem blockAfterAll_absorbSequence (l : List Absorbing) (b : Block) :
    blockAfterAll ((absorbSequence l).flatMap Stmt.expand) b = absorbAll l b.startMessage := by
  rw [← blockAfterAll_flatMap_stmts]
  rfl

/-- An absorbing statement adds its bytes to the message, letters or not (R74, R82). -/
theorem Absorbing.effect_message (a : Absorbing) (b : Block) :
    (a.effect b).crcState = crcBytes b.crcState a.bytes ∧
    (a.effect b).byteCount = b.byteCount + BitVec.ofNat 32 a.bytes.length := by
  cases a with
  | feed n1 w => exact ⟨rfl, by rw [Absorbing.bytes, length_firstBytes]; rfl⟩
  | load w | text w => simp [Absorbing.effect, Block.loadType_eq, Absorbing.bytes, bytesOf]

/-- The message of a series of absorbing statements is their bytes in order (41_crc.md R83). -/
theorem absorbAll_message (l : List Absorbing) (b : Block) :
    (absorbAll l b).crcState = crcBytes b.crcState (l.flatMap Absorbing.bytes) ∧
    (absorbAll l b).byteCount = b.byteCount + BitVec.ofNat 32 (l.flatMap Absorbing.bytes).length := by
  induction l generalizing b with
  | nil => simp
  | cons a l ih =>
    obtain ⟨hstate, hcount⟩ := ih (a.effect b)
    obtain ⟨hstate', hcount'⟩ := a.effect_message b
    rw [absorbAll_cons, List.flatMap_cons, List.length_append, crcBytes_append, BitVec.ofNat_add, ← BitVec.add_assoc,
      ← hstate', ← hcount']
    exact ⟨hstate, hcount⟩

/-! ### The payload in groups (41_crc.md R89) -/

/-- The groups of a payload are feeds, and their bytes are the payload. -/
theorem payloadFeeds_bytes (payload : List Byte) : (payloadFeeds payload).flatMap Absorbing.bytes = payload := by
  induction payload using payloadFeeds.induct with
  | case1 b0 b1 b2 b3 rest ih => simp [payloadFeeds, Absorbing.bytes, firstBytes, ih]
  | _ => simp [payloadFeeds, Absorbing.bytes, firstBytes]

/-- Feeding a payload records no error. -/
theorem absorbAll_payloadFeeds_errorRecord (payload : List Byte) (b : Block) :
    (absorbAll (payloadFeeds payload) b).errCode = b.errCode ∧
    (absorbAll (payloadFeeds payload) b).multiErr = b.multiErr := by
  induction payload using payloadFeeds.induct generalizing b with
  | case1 b0 b1 b2 b3 rest ih => exact ih _
  | _ => exact ⟨rfl, rfl⟩

/-! ### A chunk: the type code and the payload as one message (41_crc.md R89, R90) -/

/-- The block when the type code and the payload are absorbed. -/
def afterChunk (code : Word) (payload : List Byte) (b : Block) : Block :=
  absorbAll (.load code :: payloadFeeds payload) b.startMessage

theorem blockAfterAll_generateSequence (code : Word) (payload : List Byte) (b : Block) :
    blockAfterAll ((generateSequence code payload).flatMap Stmt.expand) b = (afterChunk code payload b).produce := by
  rw [generateSequence, chunkSequence, List.flatMap_append, blockAfterAll_append, blockAfterAll_absorbSequence]
  exact effectOfWord_encode (i := .crcFinal) rfl _

theorem blockAfterAll_verifySequence (code : Word) (payload : List Byte) (c : Word) (b : Block) :
    blockAfterAll ((verifySequence code payload c).flatMap Stmt.expand) b =
      effectOf .crcVerify ((afterChunk code payload b).writeData c) := by
  rw [verifySequence, chunkSequence, List.flatMap_append, blockAfterAll_append, blockAfterAll_absorbSequence]
  exact effectOfWord_encode (i := .crcVerify) rfl _

/-- CRC_STATE then stands for the chunk's checksum, whatever the block held before. -/
theorem finalValue_afterChunk (code : Word) (payload : List Byte) (b : Block) :
    finalValue (afterChunk code payload b).crcState = crc32 (bytesOf code ++ payload) := by
  rw [afterChunk, (absorbAll_message _ _).1, List.flatMap_cons, payloadFeeds_bytes]
  rfl

/-- Only the check of the type code can record an error, and it does not stop the checksum (40_typecode.md R74). -/
theorem afterChunk_errorRecord (code : Word) (payload : List Byte) (b : Block) :
    (afterChunk code payload b).errCode =
      (if alpha4 code = false ∧ b.errCode = .none then .invalidTypeCode else b.errCode) ∧
    (afterChunk code payload b).multiErr =
      (if alpha4 code = false ∧ b.errCode ≠ .none then true else b.multiErr) := by
  rw [afterChunk, absorbAll_cons]
  obtain ⟨hcode, hmulti⟩ :=
    absorbAll_payloadFeeds_errorRecord payload (Absorbing.effect (.load code) b.startMessage)
  rw [hcode, hmulti, Absorbing.effect, Block.loadType_eq]
  exact ⟨rfl, rfl⟩

/-- The verdict of the verification sequence: CRC_MATCH for the chunk's checksum, CRC_MISMATCH for any other value. -/
theorem verifySequence_verdict (code : Word) (payload : List Byte) (c : Word) (b : Block) :
    (blockAfterAll ((verifySequence code payload c).flatMap Stmt.expand) b).crcMatch =
      decide (c = crc32 (bytesOf code ++ payload)) ∧
    (blockAfterAll ((verifySequence code payload c).flatMap Stmt.expand) b).crcMismatch =
      !decide (c = crc32 (bytesOf code ++ payload)) := by
  rw [blockAfterAll_verifySequence, ← finalValue_afterChunk code payload b]
  exact effectOf_crcVerify_verdict _

/-- CRC.VERIFY records CHECKSUM_MISMATCH on the record that the type code left. -/
theorem verifySequence_errorRecord (code : Word) (payload : List Byte) (c : Word) (b : Block) :
    (blockAfterAll ((verifySequence code payload c).flatMap Stmt.expand) b).errCode =
      (if c ≠ crc32 (bytesOf code ++ payload) ∧ (afterChunk code payload b).errCode = .none then .checksumMismatch
        else (afterChunk code payload b).errCode) ∧
    (blockAfterAll ((verifySequence code payload c).flatMap Stmt.expand) b).multiErr =
      (if c ≠ crc32 (bytesOf code ++ payload) ∧ (afterChunk code payload b).errCode ≠ .none then true
        else (afterChunk code payload b).multiErr) := by
  rw [blockAfterAll_verifySequence, ← finalValue_afterChunk code payload b]
  exact effectOf_crcVerify_errorRecord _

end Sys2Proof.Machine

section

open Sys2Proof Sys2Proof.Machine

/-- Settles O56: the verdict compares the expected value with the chunk's checksum; from a clean record the type code
and the verdict are the only two causes of an error. -/
theorem verificationDecidesChunk : Obligations.VerificationDecidesChunk := by
  intro code payload c s rest
  obtain ⟨hmatch, hmismatch⟩ := verifySequence_verdict code payload c s.block
  obtain ⟨hcode, hmulti⟩ := verifySequence_errorRecord code payload c s.block
  obtain ⟨hcodeChunk, hmultiChunk⟩ := afterChunk_errorRecord code payload s.block
  refine ⟨_, runSequence_eq _ s rest, rfl, by simp [hmatch], by simp [hmismatch], fun hclean hsingle => ?_⟩
  rw [hcodeChunk, hmultiChunk] at hmulti
  rw [hcodeChunk] at hcode
  simp only [hcode, hmulti, hclean, hsingle]
  refine ⟨fun halpha => ?_, fun halpha => ?_⟩
  · simp [halpha]
  · simp [halpha]

/-- Settles O57: CRC.FINAL leaves the chunk's checksum in CRC_OUT, and that is the value that verifies. -/
theorem roundTripVerifies : Obligations.RoundTripVerifies := by
  intro code payload s rest
  refine ⟨_, runSequence_eq _ s rest, fun rest' => ⟨_, runSequence_eq _ _ rest', ?_⟩⟩
  have hout : (blockAfterAll ((generateSequence code payload).flatMap Stmt.expand) s.block).crcOut =
      crc32 (bytesOf code ++ payload) := by
    rw [blockAfterAll_generateSequence, Block.produce_crcOut, finalValue_afterChunk]
  obtain ⟨hmatch, hmismatch⟩ := verifySequence_verdict code payload (crc32 (bytesOf code ++ payload))
    (blockAfterAll ((generateSequence code payload).flatMap Stmt.expand) s.block)
  simp [hout, hmatch, hmismatch]

/-- Settles O41: an event that is neither a reset nor a type command keeps TYPE and TYPE_OK. -/
theorem typeOkOnlyByValidation : Obligations.TypeOkOnlyByValidation := by
  refine ⟨fun s t e rest hstep hchanged => ?_, fun s t e rest hstep hbefore hafter => ?_,
    fun s t hinv hstep hok => ?_, rfl⟩
  · obtain ⟨-, -, hblock⟩ := step_cons_next hstep
    rw [hblock] at hchanged
    rcases blockAfterEvent_type_cases e s.block with ⟨-, hkept⟩ | hreset | ⟨hcommand, -⟩
    · exact absurd hkept hchanged
    · exact .inl hreset
    · exact .inr hcommand
  · obtain ⟨-, -, hblock⟩ := step_cons_next hstep
    rw [hblock] at hafter ⊢
    rcases blockAfterEvent_type_cases e s.block with ⟨-, hkept⟩ | rfl | ⟨-, htype, halpha⟩
    · rw [hkept, hbefore] at hafter
      cases hafter
    · cases hafter
    · exact ⟨htype, halpha hafter⟩
  · rcases step_next_cases hstep with rfl | ⟨e, rest, -, -, hblock⟩
    · exact hinv hok
    · rw [hblock] at hok ⊢
      rcases blockAfterEvent_type_cases e s.block with ⟨htype, hkept⟩ | rfl | ⟨-, htype, halpha⟩
      · rw [htype]
        exact hinv (hkept ▸ hok)
      · cases hok
      · rw [htype]
        exact halpha hok

/-- Settles O43: bit 5 of a letter is its case. -/
theorem caseFlagsMatchLetterCase : Obligations.CaseFlagsMatchLetterCase := by
  intro t halpha
  obtain ⟨hcrit, hpub, -, hres, hsafe⟩ := caseBits_of_alpha4 halpha
  exact ⟨hcrit, hpub, hres, hsafe⟩

/-- Settles O46: the text form is the four bytes of TYPE, which make up the word. -/
theorem textFormIsFourLetters : Obligations.TextFormIsFourLetters := by
  refine ⟨fun b => ?_, fun b l hl => ?_, fun b l h hl => ?_, fun b b' l hl hl' => ?_⟩
  · cases hok : b.typeOk <;> simp [Block.textForm?, hok]
  · exact ((b.textForm?_eq_some_iff l).1 hl).2
  · obtain ⟨hok, rfl⟩ := (b.textForm?_eq_some_iff l).1 hl
    obtain ⟨-, htype, -⟩ := h
    exact ⟨rfl, (alpha4_iff_forall_mem b.typeReg).1 (htype hok)⟩
  · obtain ⟨-, hbytes⟩ := (b.textForm?_eq_some_iff l).1 hl
    obtain ⟨-, hbytes'⟩ := (b'.textForm?_eq_some_iff l).1 hl'
    exact bytesOf_injective (hbytes.symm.trans hbytes')

/-- Settles O28: `loadType` field by field; "RuSt" is alphabetic. -/
theorem typeLoadValidates : Obligations.TypeLoadValidates := by
  refine ⟨fun a s => ⟨?_, ?_⟩, fun s hdata => ?_⟩
  · cases a
    · exact decode_encode (i := .typeLoad false) rfl
    · exact decode_encode (i := .typeLoad true) rfl
  · rw [exec_eq, effectOf, Block.loadType_eq]
    rfl
  · have htype : (s.block.loadType false).typeReg = 0x52755374#32 := by rw [Block.loadType_eq]; exact hdata
    have hok : (s.block.loadType false).typeOk = true := by
      rw [Block.loadType_eq, hdata]
      exact alpha4_RuSt
    exact ⟨_, exec_eq (.typeLoad false) s, htype, hok, typeFlagsWord_of_RuSt htype hok⟩

/-- Settles O29: the length is checked first; with LEN = 4 the effect is that of TYPE.LOAD. -/
theorem typeTextChecksLengthThenLoads : Obligations.TypeTextChecksLengthThenLoads := by
  refine ⟨fun len a => ?_, fun len a s hlen => ?_, fun a s => ?_, fun s hclean hdata => ?_, fun s hclean hdata => ?_,
    fun s hdata => ?_⟩
  · cases a
    · exact decode_encode (i := .typeText len false) rfl
    · exact decode_encode (i := .typeText len true) rfl
  · rw [exec_eq, effectOf, if_neg hlen]
    rfl
  · obtain ⟨hload, -⟩ := typeLoadValidates
    exact ⟨rfl, (hload a s).2⟩
  · have halpha : alpha4 s.block.data = false := by rw [hdata]; decide
    refine ⟨_, exec_eq (.typeText 4#4 false) s, ?_⟩
    simp [effectOf, Block.loadType_eq, halpha, hclean, Block.typeFlagsWord]
  · refine ⟨_, exec_eq (.typeText 2#4 false) s, ?_⟩
    simp [effectOf, hclean]
  · have halpha : alpha4 s.block.data = true := hdata ▸ alpha4_RuSt
    refine ⟨_, exec_eq (.typeText 4#4 false) s, ?_⟩
    simp [effectOf, Block.loadType_eq, halpha]

end

/-! SUPPORT. The checksum (41_crc.md): bit reversal carries the shift register of R81 to the division of R80's
parameters, the four bytes of a word are 32 rounds, and a message with one byte changed has another checksum. Then
the message that a list of absorbing statements leaves, and that a feed reads no byte beyond N (R83, R85, R91). -/

namespace Sys2Proof.Machine

/-! ### The two forms of the algorithm (R80, R81) -/

theorem reverse_xor {n : Nat} (x y : BitVec n) : (x ^^^ y).reverse = x.reverse ^^^ y.reverse := by
  apply BitVec.eq_of_getLsbD_eq
  simp [BitVec.getLsbD_reverse]

theorem reverse_ushiftRight_one (t : Word) : (t >>> 1).reverse = t.reverse <<< 1 := by
  apply BitVec.eq_of_getMsbD_eq
  simp [BitVec.getMsbD_reverse, Nat.add_comm]

/-- Reversed, a byte at the low end of a word stands reversed at its high end. -/
theorem reverse_setWidth_byte (b : Byte) : (b.setWidth 32 : Word).reverse = b.reverse.setWidth 32 <<< 24 := by
  apply BitVec.eq_of_getMsbD_eq
  intro i hi
  simp [BitVec.getMsbD_reverse, hi]

theorem reverse_crcPolyReflected : crcPolyReflected.reverse = crcPoly := by decide +kernel

theorem reverse_crcInitValue : crcInitValue.reverse = crcInitValue := by decide +kernel

/-- The bit that leaves the shift register is the one that leaves the division. -/
theorem divideBit_reverse (t : Word) : divideBit t.reverse = (crcBit t).reverse := by
  rw [divideBit, crcBit, BitVec.msb_reverse, apply_ite BitVec.reverse, reverse_xor, reverse_ushiftRight_one,
    reverse_crcPolyReflected]

theorem divideBits_reverse (k : Nat) (t : Word) : divideBits k t.reverse = (crcBits k t).reverse := by
  induction k generalizing t with
  | zero => rfl
  | succ k ih => rw [divideBits, divideBit_reverse, ih, crcBits_succ]

theorem divideByte_reverse (s : Word) (b : Byte) : divideByte s.reverse b = (crcByte s b).reverse := by
  rw [divideByte, ← reverse_setWidth_byte, ← reverse_xor, divideBits_reverse, crcByte]

/-- The division of a message gives the shift register's state, reversed. -/
theorem foldl_divideByte (s : Word) (m : List Byte) : m.foldl divideByte s.reverse = (crcBytes s m).reverse :=
  List.foldl_hom BitVec.reverse divideByte_reverse

/-! ### The checksum as a part of the message (R80's residue) -/

theorem xor_finalValue (s : Word) : s ^^^ finalValue s = crcFinalXor := by
  rw [finalValue, ← BitVec.xor_assoc, BitVec.xor_self, BitVec.zero_xor]

/-- Absorbing the four bytes of a word, least significant first, is 32 rounds on the whole word. -/
theorem crcBytes_leastSignificantFirst (s c : Word) :
    crcBytes s [c.extractLsb' 0 8, c.extractLsb' 8 8, c.extractLsb' 16 8, c.extractLsb' 24 8] =
      crcBits 32 (s ^^^ c) := by
  have hbyte (k : Nat) : c.extractLsb' k 8 = (c >>> k).setWidth 8 := by
    apply BitVec.eq_of_getLsbD_eq
    simp
  have hend : c >>> 32 = 0#32 := BitVec.ushiftRight_eq_zero (Nat.le_refl 32)
  calc crcBytes s [c.extractLsb' 0 8, c.extractLsb' 8 8, c.extractLsb' 16 8, c.extractLsb' 24 8]
    _ = crcBits 8 (crcBits 8 (crcBits 8 (crcBits 8 (s ^^^ c)))) := by
      simp only [crcBits_eight_xor, ← BitVec.shiftRight_add, hend, hbyte]
      simp
    _ = crcBits 32 (s ^^^ c) := by simp only [← crcBits_add]

theorem crcBits_thirtyTwo_crcFinalXor : crcBits 32 crcFinalXor = 0xDEBB20E3#32 := by decide +kernel

/-! ### One byte changed (R92) -/

/-- Messages that differ in one byte have different checksums: no update loses the difference. -/
theorem crc32_ne_of_byte_ne (before after : List Byte) {b b' : Byte} (h : b' ≠ b) :
    crc32 (before ++ b' :: after) ≠ crc32 (before ++ b :: after) := by
  intro heq
  have hstate := BitVec.xor_left_inj crcFinalXor |>.1 heq
  rw [crcBytes_append, crcBytes_append, crcBytes_cons, crcBytes_cons] at hstate
  exact h (crcByte_right_injective (crcBytes_left_injective hstate))

theorem xor_bit_ne (b : Byte) {j : Nat} (hj : j < 8) : b ^^^ (1#8 <<< j) ≠ b := by
  intro heq
  have hbit := congrArg (BitVec.getLsbD · j) heq
  simp [hj] at hbit

/-! ### Messages (R83, R91) -/

/-- CRC.INIT and a list of absorbing statements leave the state and the length of their bytes, whatever the block held
before. -/
theorem absorbSequence_message (l : List Absorbing) (b : Block) :
    (blockAfterAll ((absorbSequence l).flatMap Stmt.expand) b).crcState =
      crcBytes crcInitValue (l.flatMap Absorbing.bytes) ∧
    (blockAfterAll ((absorbSequence l).flatMap Stmt.expand) b).byteCount =
      BitVec.ofNat 32 (l.flatMap Absorbing.bytes).length := by
  obtain ⟨hstate, hcount⟩ := absorbAll_message l b.startMessage
  rw [blockAfterAll_absorbSequence, hstate, hcount, Block.startMessage_crcState, Block.startMessage_byteCount,
    BitVec.zero_add]
  exact ⟨rfl, rfl⟩

theorem afterChunk_byteCount (code : Word) (payload : List Byte) (b : Block) :
    (afterChunk code payload b).byteCount = BitVec.ofNat 32 (4 + payload.length) := by
  obtain ⟨-, hcount⟩ := absorbAll_message (.load code :: payloadFeeds payload) b.startMessage
  rw [afterChunk, hcount, List.flatMap_cons, payloadFeeds_bytes, List.length_append, Block.startMessage_byteCount,
    BitVec.zero_add]
  rfl

/-! ### Bytes beyond N (R85) -/

theorem Block.absorb_congr {w w' : Word} {n : Nat} (h : firstBytes w n = firstBytes w' n) (b : Block) :
    b.absorb w n = b.absorb w' n := by
  rw [Block.absorb, h, Block.absorb]

theorem Block.absorb_writeData (b : Block) (v w : Word) (n : Nat) :
    (b.writeData v).absorb w n = (b.absorb w n).writeData v := rfl

/-! ### "RuSt" (R85, R91) -/

theorem crcBytes_RuSt : crcBytes crcInitValue (bytesOf 0x52755374#32) = 0x2B7BF6C3#32 := by decide +kernel

end Sys2Proof.Machine

section

open Sys2Proof Sys2Proof.Machine

/-- Settles O47: the division runs on the reversed state from the first byte to the last, so reversing its result gives
the shift register's. -/
theorem crcMatchesCatalogue : Obligations.CrcMatchesCatalogue := by
  intro m
  have hdivide := foldl_divideByte crcInitValue m
  rw [reverse_crcInitValue] at hdivide
  rw [crc32Catalogue, hdivide, BitVec.reverse_reverse_eq, crc32, finalValue]

/-- Settles O49: the state xor its checksum is 0xFFFFFFFF for every message, and 32 rounds make the residue of it. -/
theorem crcResidue : Obligations.CrcResidue := by
  intro m
  show crcBytes crcInitValue _ = _
  rw [crcBytes_append, crcBytes_leastSignificantFirst, crc32, xor_finalValue, crcBits_thirtyTwo_crcFinalXor]

/-- Settles O50: the flipped byte is another byte, so the checksum is another, and CRC.VERIFY compares the two. -/
theorem singleBitFlipIsDetected : Obligations.SingleBitFlipIsDetected := by
  intro before after b j hj
  have hne := crc32_ne_of_byte_ne before after (xor_bit_ne b hj)
  refine ⟨hne, fun s hstate hdata => ⟨_, exec_eq .crcVerify s, ?_⟩⟩
  have hdiffer : s.block.data ≠ finalValue s.block.crcState := by
    rw [hdata, hstate]
    exact hne.symm
  obtain ⟨hmatch, hmismatch⟩ := effectOf_crcVerify_verdict s.block
  obtain ⟨hcode, -⟩ := effectOf_crcVerify_errorRecord s.block
  refine ⟨by simpa [hdiffer] using hmismatch, by simpa [hdiffer] using hmatch, fun hclean => ?_⟩
  rw [State.withBlock_block, hcode, if_pos ⟨hdiffer, hclean⟩]

/-- Settles O53: the state and the length of the bytes absorbed. -/
theorem absorbSequenceComputesCrc : Obligations.AbsorbSequenceComputesCrc := by
  intro l s rest
  obtain ⟨hstate, hcount⟩ := absorbSequence_message l s.block
  exact ⟨_, runSequence_eq _ s rest, rfl, hstate, congrArg finalValue hstate, hcount⟩

/-- Settles O54: the state and the length are functions of the bytes alone, and the three divisions of "RuSt" have the
same bytes. -/
theorem splitInvariance : Obligations.SplitInvariance := by
  refine ⟨fun l l' s s' rest rest' hbytes => ?_, fun l hl s rest => ?_⟩
  · obtain ⟨hstate, hcount⟩ := absorbSequence_message l s.block
    obtain ⟨hstate', hcount'⟩ := absorbSequence_message l' s'.block
    rw [hbytes] at hstate hcount
    exact ⟨_, _, runSequence_eq _ s rest, runSequence_eq _ s' rest', hstate.trans hstate'.symm,
      hcount.trans hcount'.symm⟩
  · have hRuSt : l.flatMap Absorbing.bytes = bytesOf 0x52755374#32 := by
      revert l
      decide
    obtain ⟨hstate, hcount⟩ := absorbSequence_message l s.block
    rw [hRuSt] at hstate hcount
    exact ⟨_, runSequence_eq _ s rest, hstate.trans crcBytes_RuSt, hcount⟩

/-- Settles O55: CRC.FINAL writes the final value of the chunk's state to CRC_OUT, whose bytes OUT_BE shows. -/
theorem generationMakesChunkChecksum : Obligations.GenerationMakesChunkChecksum := by
  intro code payload s rest
  have hout : (afterChunk code payload s.block).produce.crcOut = crc32 (bytesOf code ++ payload) :=
    finalValue_afterChunk code payload s.block
  refine ⟨_, runSequence_eq _ s rest, rfl, ?_⟩
  rw [blockAfterAll_generateSequence]
  exact ⟨hout, rfl, congrArg bytesOf hout, afterChunk_byteCount code payload s.block⟩

/-- Settles O52: an absorb reads DATA through its first N bytes only, and writes no part of it. -/
theorem bytesBeyondCountIgnored : Obligations.BytesBeyondCountIgnored := by
  intro n1 s t v hbytes hexec
  obtain rfl := exec_next_iff.1 hexec
  have heffect : effectOf (.crcFeed (feedCount n1)) (s.block.writeData v) =
      (effectOf (.crcFeed (feedCount n1)) s.block).writeData v := by
    rw [effectOf, effectOf, feedCount_toNat, Block.writeData_data, Block.absorb_writeData, Block.absorb_congr hbytes]
  rw [exec_eq, State.withBlock_block, heffect]
  rfl

/-- Settles O24: CRC.INIT's word and effect; the effect reads none of the fields it writes. -/
theorem crcInitStartsMessage : Obligations.CrcInitStartsMessage := by
  refine ⟨decode_encode (i := .crcInit) rfl, fun s => ⟨exec_eq .crcInit s, fun t ht => ?_⟩⟩
  obtain rfl := exec_next_iff.1 ht
  exact exec_eq .crcInit _

/-- Settles O25: the word is the one `encode` gives, and the effect is `absorb` of DATA. -/
theorem crcFeedAbsorbsFirstBytes : Obligations.CrcFeedAbsorbsFirstBytes := by
  refine ⟨fun n1 s => ⟨?_, ?_⟩, fun s hstate hcount hdata => ⟨_, exec_eq (.crcFeed 4#3) s, ?_, ?_⟩⟩
  · rw [← encode_crcFeed_feedCount]
    exact decode_encode (feedCount_wellFormed n1)
  · rw [exec_eq, effectOf, feedCount_toNat]
    rfl
  · show crcBytes s.block.crcState (bytesOf s.block.data) = _
    rw [hstate, hdata]
    exact crcBytes_RuSt
  · show s.block.byteCount + 4#32 = _
    rw [hcount]
    rfl

/-- Settles O26: CRC.FINAL's word and effect; the effect keeps the CRC_STATE it reads. -/
theorem crcFinalProducesChecksum : Obligations.CrcFinalProducesChecksum := by
  refine ⟨decode_encode (i := .crcFinal) rfl, fun s => ⟨exec_eq .crcFinal s, fun t ht => ?_⟩, fun s hstate => ?_⟩
  · obtain rfl := exec_next_iff.1 ht
    exact exec_eq .crcFinal _
  · refine ⟨_, exec_eq .crcFinal s, ?_⟩
    show finalValue s.block.crcState = _
    rw [hstate]
    rfl

/-- Settles O27: CRC.VERIFY's word, and its effect in the two cases of the comparison. -/
theorem crcVerifyCompares : Obligations.CrcVerifyCompares := by
  refine ⟨decode_encode (i := .crcVerify) rfl, fun s => ⟨fun h => ?_, fun h => ?_⟩⟩
  · have hequal : finalValue s.block.crcState = s.block.data := h
    rw [exec_eq, effectOf, if_pos hequal]
    rfl
  · have hdiffer : finalValue s.block.crcState ≠ s.block.data := h
    rw [exec_eq, effectOf, if_neg hdiffer]
    rfl

/-- Settles O48: the spec's values, by evaluation. -/
theorem crcExampleValues : Obligations.CrcExampleValues := by
  unfold Obligations.CrcExampleValues
  decide +kernel

/-- Settles O51: BYTE_COUNT is a 32-bit sum and `absorb` leaves the error record alone. -/
theorem byteCountWraps : Obligations.ByteCountWraps := by
  refine ⟨fun n1 s => ⟨_, exec_eq _ s, ?_, rfl, rfl⟩, fun s hcount => ⟨_, exec_eq (.crcFeed 4#3) s, ?_⟩⟩
  · simp [effectOf, Nat.add_assoc]
  · show s.block.byteCount + 4#32 = _
    rw [hcount]
    rfl

end

/-! SUPPORT. NOP and ERR.CLR (42_control.md): NOP is one word, ERR.CLR clears three fields of STATUS, and a command that
lowers ERR_CODE is ERR.CLR. -/

namespace Sys2Proof.Machine

/-- NOP has no operand and no ignored bit: its row accepts one word. -/
theorem rowNop_accepts_iff (w : Word) : rowNop.accepts w = true ↔ w = 0x00000000#32 := by
  have hmask : rowNop.mask = BitVec.allOnes 32 := by decide
  rw [Row.accepts_iff, hmask, BitVec.and_allOnes]
  rfl

/-- Clearing the error record clears ERR, ERR_CODE and MULTI_ERR in STATUS, bits 8:3, and keeps every other bit. -/
theorem Block.statusWord_clearError (b : Block) : b.clearError.statusWord = b.statusWord &&& ~~~0x1F8#32 := by
  rw [Block.statusWord_eq b]
  show statusOf b.crcMatch b.crcMismatch b.typeOk .none false b.outValid = _
  generalize b.crcMatch = crcMatch, b.crcMismatch = crcMismatch, b.typeOk = typeOk, b.errCode = code,
    b.multiErr = multiErr, b.outValid = outValid
  cases code <;> decide +revert

@[simp] theorem Block.irq_clearError (b : Block) : b.clearError.irq = false := by
  simp [Block.irq]

/-- No command but ERR.CLR lowers ERR_CODE: with no error recorded there is nothing lower, and a recorded error is
kept. -/
theorem errCode_bits_le_effectOf {i : Instr} (hi : i ≠ .errClr) (b : Block) :
    b.errCode.bits ≤ (effectOf i b).errCode.bits := by
  by_cases hclean : b.errCode = .none
  · rw [hclean]
    exact BitVec.le_def.2 (Nat.zero_le _)
  · rw [effectOf_errCode_of_error hi hclean]
    exact BitVec.le_refl _

end Sys2Proof.Machine

section

open Sys2Proof Sys2Proof.Machine

/-- Settles O23: NOP's effect is the identity, and its row accepts no word but 0. -/
theorem nopChangesNothing : Obligations.NopChangesNothing := by
  refine ⟨exec_eq .nop, decode_encode (i := .nop) rfl, fun w hop hw => ?_⟩
  have hrow : rowNop ∈ opcodeRows := Instr.row_mem_opcodeRows .nop
  rw [decode_eq_reservedBit_iff hrow hop]
  rintro ⟨hhigh, hmiddle⟩
  exact hw ((rowNop_accepts_iff w).1 ((Row.accepts_iff_fields hrow w).2 ⟨hop, hhigh, hmiddle⟩))

/-- Settles O30: ERR.CLR's word and effect, what STATUS and `irq` then show, and that no other command lowers
ERR_CODE. -/
theorem errClrClearsRecord : Obligations.ErrClrClearsRecord := by
  refine ⟨decode_encode (i := .errClr) rfl, fun s => ⟨_, exec_eq .errClr s, rfl, ?_, s.block.irq_clearError, ?_⟩,
    fun i s u hexec hlower => ?_, fun s rest => ⟨_, rfl, rfl⟩⟩
  · obtain ⟨-, -, -, herr, -⟩ := s.block.clearError.statusWord_flags
    exact herr.trans (by simp)
  · intro hstatus
    show s.block.clearError.statusWord = _
    rw [Block.statusWord_clearError, hstatus]
    rfl
  · obtain rfl := exec_next_iff.1 hexec
    by_contra hi
    exact absurd (errCode_bits_le_effectOf hi s.block) (BitVec.not_le.2 hlower)

end

/-! SUPPORT. Errors (60_exceptions.md): the one error a command finds and how it enters the error record, and which
accesses are answered ERROR. -/

namespace Sys2Proof.Machine

/-! ### The error a command finds (R99, R107) -/

/-- The error a command finds on a block, `.none` if it finds none. `errorRecord_effectOf` ties it to the commands'
effects. -/
def errorOf (i : Instr) (b : Block) : ErrCode :=
  match i with
  | .crcVerify => if b.data = finalValue b.crcState then .none else .checksumMismatch
  | .typeLoad _ => if alpha4 b.data then .none else .invalidTypeCode
  | .typeText len _ =>
    if len = 4#4 then (if alpha4 b.data then .none else .invalidTypeCode) else .invalidLength
  | .nop => .none
  | .crcInit => .none
  | .crcFeed _ => .none
  | .crcFinal => .none
  | .errClr => .none

theorem eq_crcVerify_of_errorOf {i : Instr} {b : Block} (h : errorOf i b = .checksumMismatch) : i = .crcVerify := by
  cases i with
  | crcVerify => rfl
  | nop | crcInit | crcFeed | crcFinal | errClr => cases h
  | typeLoad | typeText => simp only [errorOf] at h; split_ifs at h

theorem errorOf_eq_invalidLength_iff (i : Instr) (b : Block) :
    errorOf i b = .invalidLength ↔ ∃ len a, i = .typeText len a ∧ len ≠ 4#4 := by
  cases i with
  | typeText len a =>
    simp only [errorOf]
    split_ifs with hlen halpha <;> simp [hlen]
  | nop | crcInit | crcFeed | crcFinal | errClr => simp [errorOf]
  | crcVerify | typeLoad => simp only [errorOf]; split_ifs <;> simp

theorem of_errorOf_eq_invalidTypeCode {i : Instr} {b : Block} (h : errorOf i b = .invalidTypeCode) :
    alpha4 b.data = false ∧ ∃ a, i = .typeLoad a ∨ i = .typeText 4#4 a := by
  cases i with
  | typeLoad a =>
    simp only [errorOf] at h
    split_ifs at h with halpha
    exact ⟨by simpa using halpha, a, .inl rfl⟩
  | typeText len a =>
    simp only [errorOf] at h
    split_ifs at h with hlen halpha
    exact ⟨by simpa using halpha, a, .inr (by rw [hlen])⟩
  | nop | crcInit | crcFeed | crcFinal | errClr => cases h
  | crcVerify => simp only [errorOf] at h; split_ifs at h

/-- ILLEGAL_CMD is no command's error. -/
theorem errorOf_ne_illegalCmd (i : Instr) (b : Block) : errorOf i b ≠ .illegalCmd := by
  cases i with
  | nop | crcInit | crcFeed | crcFinal | errClr => nofun
  | crcVerify | typeLoad | typeText => simp only [errorOf]; split_ifs <;> nofun

/-- The error a word written to CMD finds: its command's, or ILLEGAL_CMD (R104). -/
def errorOfWord (w : Word) (b : Block) : ErrCode :=
  match decode w with
  | .command i => errorOf i b
  | .illegal _ => .illegalCmd

/-! ### The error record (R101) -/

/-- ERR_CODE and MULTI_ERR. -/
def Block.errorRecord (b : Block) : ErrCode × Bool := (b.errCode, b.multiErr)

/-- Record an error, if there is one. -/
def Block.noteError (b : Block) (code : ErrCode) : Block := if code = .none then b else b.recordError code

@[simp] theorem Block.noteError_none (b : Block) : b.noteError .none = b := rfl

theorem Block.errorRecord_noteError_of_clean {b : Block} (hclean : b.errCode = .none) (code : ErrCode) :
    (b.noteError code).errorRecord = (code, b.multiErr) := by
  cases code with
  | none => simp [Block.errorRecord, hclean]
  | _ => simp [Block.errorRecord, Block.noteError, hclean]

theorem Block.noteError_sticky (b : Block) (code : ErrCode) :
    (b.errCode ≠ .none → (b.noteError code).errCode = b.errCode) ∧
    (b.multiErr = true → (b.noteError code).multiErr = true) := by
  unfold Block.noteError
  split_ifs
  · exact ⟨fun _ => rfl, id⟩
  · exact ⟨fun herr => by simp [herr], fun hmulti => by simp [hmulti]⟩

/-- TYPE.LOAD and TYPE.TEXT with LEN = 4 find INVALID_TYPE_CODE exactly when DATA is not alphabetic. -/
theorem errorRecord_loadType (b : Block) (a : Bool) :
    (b.loadType a).errorRecord =
      (b.noteError (if alpha4 b.data then .none else .invalidTypeCode)).errorRecord := by
  rw [Block.loadType_eq]
  cases halpha : alpha4 b.data <;> simp [Block.errorRecord, Block.noteError]

/-- All that a command but ERR.CLR does to the error record is to note the one error it finds. -/
theorem errorRecord_effectOf {i : Instr} (hi : i ≠ .errClr) (b : Block) :
    (effectOf i b).errorRecord = (b.noteError (errorOf i b)).errorRecord := by
  cases i with
  | errClr => exact absurd rfl hi
  | nop | crcInit | crcFeed | crcFinal => rfl
  | crcVerify =>
    by_cases h : b.data = finalValue b.crcState
    · rw [effectOf, errorOf, if_pos h.symm, if_pos h]
      rfl
    · rw [effectOf, errorOf, if_neg (Ne.symm h), if_neg h]
      rfl
  | typeLoad a => exact errorRecord_loadType b a
  | typeText len a =>
    by_cases hlen : len = 4#4
    · rw [effectOf, errorOf, if_pos hlen, if_pos hlen]
      exact errorRecord_loadType b a
    · rw [effectOf, errorOf, if_neg hlen, if_neg hlen]
      rfl

theorem errorRecord_effectOfWord {w : Word} (hw : w ≠ 0x00000020#32) (b : Block) :
    (effectOfWord w b).errorRecord = (b.noteError (errorOfWord w b)).errorRecord := by
  unfold errorOfWord
  cases hd : decode w with
  | command i =>
    rw [effectOfWord_of_command hd]
    exact errorRecord_effectOf (fun hi => hw ((decode_eq_errClr_iff w).1 (hi ▸ hd))) b
  | illegal why =>
    rw [effectOfWord_of_illegal hd]
    rfl

/-- Into a clean record a word writes the error it finds; ERR.CLR finds none and leaves the record clean. -/
theorem errorRecord_effectOfWord_of_clean {b : Block} (hclean : b.errCode = .none) (hsingle : b.multiErr = false)
    (w : Word) : (effectOfWord w b).errorRecord = (errorOfWord w b, false) := by
  by_cases hw : w = 0x00000020#32
  · have hnone : errorOfWord w b = .none := by
      rw [errorOfWord, (decode_eq_errClr_iff w).2 hw]
      rfl
    rw [hnone, hw, effectOfWord_errClr]
    rfl
  · rw [errorRecord_effectOfWord hw, Block.errorRecord_noteError_of_clean hclean, hsingle]

/-- Every event but a reset and a CMD write of ERR.CLR notes at most one error. -/
theorem errorRecord_blockAfterEvent {e : Event} (hreset : e ≠ .reset)
    (hclr : e ≠ .access (commandWrite 0x00000020#32)) (b : Block) :
    ∃ code, (blockAfterEvent e b).errorRecord = (b.noteError code).errorRecord := by
  cases e with
  | reset => exact absurd rfl hreset
  | resetOverlapping r => exact ⟨.none, rfl⟩
  | access r =>
    rcases admittedWrite_or_blockAfter_eq r with ⟨v, rfl⟩ | ⟨v, rfl⟩ | ⟨w, rfl⟩ | hkept
    · exact ⟨.none, rfl⟩
    · exact ⟨.none, rfl⟩
    · exact ⟨errorOfWord w b, errorRecord_effectOfWord (fun hw => hclr (by rw [hw])) b⟩
    · exact ⟨.none, congrArg Block.errorRecord (hkept b)⟩

/-! ### Bus errors (R35, R105) -/

/-- The register map of R34 answers exactly what the pseudocode of R35 admits. -/
theorem admitted_or_busError (r : Request) (b : Block) :
    (r.admitted = true ∧ ∀ a, answerOf r b ≠ .busError a) ∨
    (r.admitted = false ∧ answerOf r b = .busError r.addr) := by
  obtain ⟨addr, size, dir⟩ := r
  cases dir <;> cases size
  case read.word =>
    have hmap := b.readWord?_isSome addr
    simp only [Request.admitted, answerOf, ← hmap]
    cases b.readWord? addr <;> simp
  case read.byte =>
    have hmap := b.readByte?_isSome addr
    simp only [Request.admitted, answerOf, ← hmap]
    cases b.readByte? addr <;> simp
  case write.word v =>
    have hmap : (addr = Reg.ctrl.offset ∨ addr = Reg.data.offset ∨ addr = Reg.cmd.offset) ↔
        (addr.toNat = 0x04 ∨ addr.toNat = 0x0C ∨ addr.toNat = 0x10) := by
      simp [Reg.offset, BitVec.toNat_eq]
    simp only [Request.admitted, answerOf, hmap]
    split_ifs with h <;> simp [h]
  all_goals exact .inr ⟨rfl, rfl⟩

/-- The writes that can change the block are admitted. -/
theorem blockAfter_of_not_admitted {r : Request} (h : r.admitted = false) (b : Block) : blockAfter r b = b := by
  rcases admittedWrite_or_blockAfter_eq r with ⟨v, rfl⟩ | ⟨v, rfl⟩ | ⟨w, rfl⟩ | hkept
  · cases h
  · cases h
  · cases h
  · exact hkept b

/-! ### The `irq` output (R109) -/

theorem Block.ctrlWord_flags (b : Block) : b.ctrlWord.getLsbD 0 = b.validSel ∧ b.ctrlWord.getLsbD 1 = b.irqEn := by
  simp only [Block.ctrlWord, BitVec.getLsbD_append]
  simp

end Sys2Proof.Machine

section

open Sys2Proof Sys2Proof.Machine

/-- Settles O14: the register map answers ERROR exactly where R35 does not admit, and there nothing is written. -/
theorem busErrorExactlyWhenNotAdmitted : Obligations.BusErrorExactlyWhenNotAdmitted := by
  intro s r rest
  refine ⟨_, answerOf r s.block, step_access s r rest, rfl, rfl, ?_⟩
  rcases admitted_or_busError r s.block with ⟨hadmitted, hanswer⟩ | ⟨hrefused, hanswer⟩
  · simp [hadmitted, hanswer]
  · exact ⟨iff_of_true ⟨r.addr, hanswer⟩ hrefused, fun _ => ⟨hanswer, blockAfter_of_not_admitted hrefused s.block⟩⟩

/-- Settles O35: a reset and ERR.CLR clear the record; any other event notes at most one error, which keeps what is
recorded. -/
theorem firstErrorIsSticky : Obligations.FirstErrorIsSticky := by
  refine ⟨fun b code => ⟨fun hclean => by simp [hclean], fun herr => by simp [herr]⟩, fun s t e rest hstep => ?_⟩
  obtain ⟨-, -, hblock⟩ := step_cons_next hstep
  rw [hblock]
  refine ⟨?_, fun hreset hclr => ?_⟩
  · rintro (rfl | rfl)
    · exact ⟨rfl, rfl⟩
    · have hcleared : blockAfterEvent (.access (commandWrite 0x00000020#32)) s.block = s.block.clearError :=
        effectOfWord_errClr s.block
      exact ⟨congrArg Block.errCode hcleared, congrArg Block.multiErr hcleared⟩
  · obtain ⟨code, hrecord⟩ := errorRecord_blockAfterEvent hreset hclr s.block
    obtain ⟨hcode, hmulti⟩ := Prod.mk.inj hrecord
    rw [hcode, hmulti]
    exact s.block.noteError_sticky code

/-- Settles O36: from a clean record the code is the one error the word finds. -/
theorem oneErrorPerCommand : Obligations.OneErrorPerCommand := by
  intro w s t hclean hsingle hperform
  rw [performCommand_eq] at hperform
  injection hperform with ht
  subst ht
  obtain ⟨hcode, hmulti⟩ := Prod.mk.inj (errorRecord_effectOfWord_of_clean hclean hsingle w)
  rw [State.withBlock_block, hcode, hmulti, errorOfWord]
  refine ⟨rfl, ?_⟩
  cases decode w with
  | illegal why => simp [Decoded.instr?]
  | command i =>
    simp only [Decoded.command.injEq]
    exact ⟨eq_crcVerify_of_errorOf, errorOf_eq_invalidLength_iff i s.block, of_errorOf_eq_invalidTypeCode,
      iff_of_false (errorOf_ne_illegalCmd i s.block) nofun⟩

/-- Settles O8: an Illegal word's effect is `recordError`; OP = 5 is no row's. -/
theorem illegalWordChangesErrorRecordOnly : Obligations.IllegalWordChangesErrorRecordOnly := by
  refine ⟨fun s w why hdecode => ?_, fun s hclean => ⟨_, performCommand_eq 0x00000005#32 s, ?_⟩⟩
  · rw [performCommand_eq, effectOfWord_of_illegal hdecode]
    rfl
  · have hdecode := decode_of_unassigned (w := 0x00000005#32) (by decide)
    rw [State.withBlock_block, effectOfWord_of_illegal hdecode, Block.statusWord_errCode,
      Block.recordError_of_none hclean]
    rfl

/-- Settles O33: `exec` is the command's effect on the block, in a next state. -/
theorem commandsAlwaysComplete : Obligations.CommandsAlwaysComplete := fun i s => ⟨_, exec_eq i s⟩

/-- Settles O37: the two bits are IRQ_EN and ERR. -/
theorem irqIsEnableAndError : Obligations.IrqIsEnableAndError := by
  intro b
  obtain ⟨-, hen⟩ := b.ctrlWord_flags
  obtain ⟨-, -, -, herr, -⟩ := b.statusWord_flags
  rw [hen, herr, Block.irq]

end

/-! SUPPORT. The events of the bus (70_reset_and_hazards.md): what a reset and an overlapping reset answer, what an event
adds to the log, and what the observation of R128 shows of the log. -/

namespace Sys2Proof.Machine

/-! ### The two forms of reset (R118, R119) -/

/-- A step that delivers a reset. -/
theorem step_reset (s : State) (rest : List Event) :
    step { s with pending := .reset :: rest } =
      .next { block := Block.reset, pending := rest, completed := s.completed } :=
  step_cons s .reset rest

/-- A step that would deliver a reset overlapping an access. -/
theorem step_resetOverlapping (s : State) (r : Request) (rest : List Event) :
    step { s with pending := .resetOverlapping r :: rest } = .refused .resetOverlapsAccess :=
  step_cons s (.resetOverlapping r) rest

/-! ### The log and what the observation shows of it (R128) -/

/-- What an event adds to the log: an access its response, a reset nothing. -/
def loggedBy (e : Event) (b : Block) : List Completed :=
  match e with
  | .access r => [⟨r, answerOf r b⟩]
  | .reset => []
  | .resetOverlapping _ => []

/-- The inversion of a step that delivers an event, for the log. -/
theorem step_cons_completed {s t : State} {e : Event} {rest : List Event}
    (h : step { s with pending := e :: rest } = .next t) : t.completed = s.completed ++ loggedBy e s.block := by
  cases e with
  | access r =>
    rw [step_access] at h
    injection h with ht
    rw [← ht, loggedBy]
  | reset =>
    rw [step_reset] at h
    injection h with ht
    rw [← ht, loggedBy, List.append_nil]
  | resetOverlapping r =>
    rw [step_resetOverlapping] at h
    cases h

/-- The responses to the reads of a log. -/
def readResponses (l : List Completed) : List Response :=
  (l.filter fun c => decide (c.request.dir = .read)).map Completed.response

theorem State.observation_eq (s : State) : s.observation = (readResponses s.completed, s.block.irq) := rfl

theorem readResponses_append (l l' : List Completed) :
    readResponses (l ++ l') = readResponses l ++ readResponses l' := by
  simp [readResponses]

theorem readResponses_loggedBy_read {r : Request} (h : r.dir = .read) (b : Block) :
    readResponses (loggedBy (.access r) b) = [answerOf r b] := by
  simp [readResponses, loggedBy, h]

theorem readResponses_loggedBy_of_not_read {e : Event} (h : ∀ r, e = .access r → r.dir ≠ .read) (b : Block) :
    readResponses (loggedBy e b) = [] := by
  cases e with
  | access r => simp [readResponses, loggedBy, h r rfl]
  | reset => rfl
  | resetOverlapping r => rfl

/-- A delivered event adds to the responses observed those of the reads it logs. -/
theorem observation_of_step_cons {s t : State} {e : Event} {rest : List Event}
    (h : step { s with pending := e :: rest } = .next t) :
    t.observation = (s.observation.1 ++ readResponses (loggedBy e s.block), t.block.irq) := by
  rw [State.observation_eq, State.observation_eq, step_cons_completed h, readResponses_append]

end Sys2Proof.Machine

section

open Sys2Proof Sys2Proof.Machine

/-- Settles O42: the step logs one response for an access and none for a reset, and the observation shows it exactly for
a read, which leaves the block as it was. -/
theorem observationGrowsByReads : Obligations.ObservationGrowsByReads := by
  intro s t e rest hstep
  obtain ⟨-, -, hblock⟩ := step_cons_next hstep
  rw [observation_of_step_cons hstep]
  refine ⟨rfl, ?_, fun hnoRead => ?_⟩
  · rintro r rfl hread
    refine ⟨answerOf r s.block, step_cons_completed hstep, ?_, hblock.trans (blockAfter_of_read hread s.block)⟩
    rw [readResponses_loggedBy_read hread]
  · rw [readResponses_loggedBy_of_not_read hnoRead, List.append_nil]

/-- Settles O9: nothing is pending, so the step is idle. -/
theorem idleStepWaits : Obligations.IdleStepWaits := fun s => step_idle { s with pending := [] } rfl

/-- Settles O10: the block after the step is `Block.reset`, R30's table, where IRQ_EN is 0. -/
theorem resetSetsEveryRegister : Obligations.ResetSetsEveryRegister :=
  fun s rest => ⟨_, step_reset s rest, rfl, rfl⟩

/-- Settles O12: `performEvent` refuses the event by that name. -/
theorem resetOverlapRefused : Obligations.ResetOverlapRefused := step_resetOverlapping

end
